-- ==== Sys2Proof/Word.lean ====
section
/-! DEFINITION. The machine's word types (spec 00_scope.md R5 and R7, 30_encoding.md R76). -/

namespace Sys2Proof

/-- A word: 32 bits, of a register, an ALU input, a bus, a data-memory cell or an immediate (R5 `XLEN`, R7). -/
abbrev Word := BitVec 32

/-- One entry of instruction memory: the 48-bit instruction word of R76. -/
abbrev InstrWord := BitVec 48

/-- A value sent to the output port: 21 bits (R5 `CP_BITS`, R35). -/
abbrev OutChar := BitVec 21

end Sys2Proof
end

