-- ==== Sys2Proof/Config.lean ====
section
/-! DEFINITION. The core's fixed parameters (spec 00_scope.md R5) and the values the spec leaves free.
The open parameters `DMEM_SIZE` and `TICK_BUDGET` are fixed by the host at load, so they are fields of
`Machine.State` and not constants here (log entries 6 and 7). -/

namespace Sys2Proof

/-- `V`: the number of I/O devices and of interrupt-vector cells at the bottom of data memory (R5). -/
def Config.vectorCells : Nat := 1

/-- The largest number of entries either memory may have: `DMEM_SIZE <= 2^31`, `IMEM_SIZE <= 2^31` (R5). -/
def Config.maxEntries : Nat := 2 ^ 31

/-- The largest Unicode codepoint, the bound R33 supplies for a delivered character
(PRESUMED: the spec marks it as general knowledge, log entry 13). -/
def Config.maxCodepoint : Nat := 0x10FFFF

/-- FREE VALUE (R26, 92_eei_decisions.md D16, 93 U3; log entry 8): `zero_flag` after a cycle whose
instruction is not arithmetic and after an interrupt entry. The argument numbers the draws. -/
opaque Config.freeZeroFlag : Nat → Bool

/-- FREE VALUE (R118, 93 U11; log entry 9): what the ALU bus holds after the operation `NOP`.
The argument numbers the draws. -/
opaque Config.freeBus : Nat → Word

end Sys2Proof
end

