-- ==== Sys2Proof/Syntax/Operand.lean ====
section
/-! DEFINITION. The operand classes of an instruction (spec 10_state.md R20, R23; 30_encoding.md R70 to R73). -/

namespace Sys2Proof

/-- The class `reg` of register operands (R23). It is the register file of the DataPath (R20): the name
`pc` of the register enumeration is in no operand class, so no instruction can name it. -/
inductive Reg where
  | r0 | r1 | r2 | r3 | r4 | sp
  deriving DecidableEq, Repr

/-- The slot `arg2`, a register or a constant (R73, the source's `val`). A constant is the whole 32-bit
immediate (R75). -/
inductive Operand where
  /-- `arg2_type = register`. -/
  | reg (r : Reg)
  /-- `arg2_type = const`. -/
  | const (imm : Word)
  deriving DecidableEq, Repr

/-- The closed opcode enumeration of R70, in the source's order. -/
inductive Opcode where
  | add | sub | div | mod | mul | cmp | je | jne | jmp | out | in_ | ld | sv | iret | sti | cli | halt
  deriving DecidableEq, Repr

/-- The six operand shapes of R72. -/
inductive Format where
  | A | B | J | L | I | N
  deriving DecidableEq, Repr

/-- R72, the format of each opcode. -/
def Opcode.format : Opcode → Format
  | .add | .sub | .div | .mod | .mul | .cmp => .A
  | .je | .jne | .sv => .B
  | .jmp | .out => .J
  | .ld => .L
  | .in_ => .I
  | .iret | .sti | .cli | .halt => .N

/-- R72: the formats that have the slot `out`. -/
def Format.hasOut : Format → Bool
  | .A | .L | .I => true
  | .B | .J | .N => false

/-- R72: the formats that have the slot `arg1`. -/
def Format.hasArg1 : Format → Bool
  | .A | .B => true
  | .J | .L | .I | .N => false

/-- R72: the formats that have the slot `arg2`. -/
def Format.hasArg2 : Format → Bool
  | .A | .B | .J | .L => true
  | .I | .N => false

end Sys2Proof
end

