-- ==== Sys2Proof/Syntax.lean ====
section
/-! DEFINITION. The instructions: one constructor for each of the 17 opcodes (spec 30_encoding.md R70),
with exactly the slots of its format (R72), in the order `out`, `arg1`, `arg2`. -/

namespace Sys2Proof

/-- The instruction set (R70, R72). `in` is a word of Lean's own, so its constructor is `in_`. -/
inductive Instr where
  /-- R130 -/
  | add (out arg1 : Reg) (arg2 : Operand)
  /-- R131 -/
  | sub (out arg1 : Reg) (arg2 : Operand)
  /-- R133 -/
  | div (out arg1 : Reg) (arg2 : Operand)
  /-- R134 -/
  | mod (out arg1 : Reg) (arg2 : Operand)
  /-- R132 -/
  | mul (out arg1 : Reg) (arg2 : Operand)
  /-- R135 -/
  | cmp (out arg1 : Reg) (arg2 : Operand)
  /-- R140 -/
  | je (arg1 : Reg) (arg2 : Operand)
  /-- R141 -/
  | jne (arg1 : Reg) (arg2 : Operand)
  /-- R142 -/
  | jmp (arg2 : Operand)
  /-- R161 -/
  | out (arg2 : Operand)
  /-- R160 -/
  | in_ (out : Reg)
  /-- R150 -/
  | ld (out : Reg) (arg2 : Operand)
  /-- R151 -/
  | sv (arg1 : Reg) (arg2 : Operand)
  /-- R170 -/
  | iret
  /-- R171 -/
  | sti
  /-- R172 -/
  | cli
  /-- R173 -/
  | halt
  deriving DecidableEq, Repr

end Sys2Proof
end

