-- ==== Sys2Proof/Syntax/Record.lean ====
section
/-! DEFINITION. The instruction record of the loadable artifact (spec 30_encoding.md R71), which can be
ill-formed; R74 (`Record.wellFormed`) says which records are not. -/

namespace Sys2Proof

/-- The closed register name enumeration of R20, `pc` among them. -/
inductive RegName where
  | r0 | r1 | r2 | r3 | r4 | sp | pc
  deriving DecidableEq, Repr

/-- The closed operand-type enumeration of R73. -/
inductive ArgType where
  | register | const
  deriving DecidableEq, Repr

/-- What the record's `arg2` field holds: a register name or an integer of any size (R71, R74 e). -/
inductive RawArg where
  | name (r : RegName)
  | int (z : Int)
  deriving DecidableEq, Repr

/-- R71: "a record with opcode, optional out (writable register), optional arg1 (register), optional
arg2 (register or integer), and arg2_type when arg2 is present." -/
structure Record where
  opcode : Opcode
  out : Option RegName := none
  arg1 : Option RegName := none
  arg2 : Option RawArg := none
  arg2Type : Option ArgType := none
  deriving DecidableEq, Repr

/-- The loadable program `code, data` of R71. `data` is an array of int32, so its cells are words. -/
structure Artifact where
  code : List Record
  data : List Word
  deriving DecidableEq, Repr

end Sys2Proof
end

