-- ==== Sys2Proof/WellFormed.lean ====
section
/-! DEFINITION. Which instructions, records and words are well-formed (spec 30_encoding.md R74, R79). -/

namespace Sys2Proof

/-- The class `wreg` of write targets: every register but `r0` (R23). -/
def Reg.writable : Reg → Bool
  | .r0 => false
  | .r1 | .r2 | .r3 | .r4 | .sp => true

/-- The slot `out` of an instruction, where its format has one (R72). -/
def Instr.out? : Instr → Option Reg
  | .add o _ _ | .sub o _ _ | .div o _ _ | .mod o _ _ | .mul o _ _ | .cmp o _ _ => some o
  | .ld o _ | .in_ o => some o
  | .je _ _ | .jne _ _ | .jmp _ | .out _ | .sv _ _ | .iret | .sti | .cli | .halt => none

/-- R74 (c): the slot `out`, when present, is in `wreg`. Every other clause of R74 holds by the type of
`Instr`; `Record.wellFormed` states them all for records. -/
def Instr.wellFormed (i : Instr) : Bool :=
  match i.out? with
  | none => true
  | some o => o.writable

/-- R23: the class `wreg` among the register names. -/
def RegName.isWreg : RegName → Bool
  | .r1 | .r2 | .r3 | .r4 | .sp => true
  | .r0 | .pc => false

/-- R23: the class `reg` among the register names. -/
def RegName.isReg : RegName → Bool
  | .r0 | .r1 | .r2 | .r3 | .r4 | .sp => true
  | .pc => false

/-- R74 (c): `out`, when present, is in `wreg`. -/
def Record.outOk (r : Record) : Bool :=
  match r.out with
  | none => true
  | some n => n.isWreg

/-- R74 (d): `arg1`, when present, is in `reg`. -/
def Record.arg1Ok (r : Record) : Bool :=
  match r.arg1 with
  | none => true
  | some n => n.isReg

/-- R74 (b), its last clause, and (e): `arg2_type` is present exactly when `arg2` is; `arg2` is in `reg`
when the type is register, and an integer of 32 bits when it is const. -/
def Record.arg2Ok (r : Record) : Bool :=
  match r.arg2, r.arg2Type with
  | none, none => true
  | some (.name n), some .register => n.isReg
  | some (.int z), some .const => decide (-2 ^ 31 ≤ z ∧ z ≤ 2 ^ 31 - 1)
  | _, _ => false

/-- R74: clause (a) holds by the type of `opcode`; (b) the present fields are exactly those of the
opcode's format; (c), (d), (e) as above. -/
def Record.wellFormed (r : Record) : Bool :=
  (r.out.isSome == r.opcode.format.hasOut) &&
  (r.arg1.isSome == r.opcode.format.hasArg1) &&
  (r.arg2.isSome == r.opcode.format.hasArg2) &&
  r.outOk && r.arg1Ok && r.arg2Ok

/-- R77: the format of an opcode number, none where the number is unassigned. -/
def formatOfNumber (n : Nat) : Option Format :=
  if n ≤ 5 then some .A
  else if n ≤ 7 ∨ n = 12 then some .B
  else if n ≤ 9 then some .J
  else if n = 10 then some .I
  else if n = 11 then some .L
  else if n ≤ 16 then some .N
  else none

/-- R79, field by field: which 48-bit words are legal. Written from the rule's own list, and not from
the decoder, so that the two can be compared. -/
def legalWord (w : InstrWord) : Bool :=
  match formatOfNumber (w.extractLsb' 43 5).toNat with
  | none => false
  | some f =>
    let out := (w.extractLsb' 40 3).toNat
    let arg1 := (w.extractLsb' 37 3).toNat
    let isConst := w.getLsbD 36
    let arg2 := (w.extractLsb' 0 32).toNat
    (w.extractLsb' 32 4).toNat == 0 &&
    (if f.hasOut then 1 ≤ out && out ≤ 5 else out == 0) &&
    (if f.hasArg1 then decide (arg1 ≤ 5) else arg1 == 0) &&
    (if f.hasArg2 then isConst || decide (arg2 ≤ 5) else !isConst && arg2 == 0)

end Sys2Proof
end

