-- ==== Sys2Proof/Decode.lean ====
section
/-! DEFINITION. The 48-bit instruction word (spec 30_encoding.md R76 to R80): the decoder, total on every
word and rejecting illegal ones by name, and after it the encoder. -/

namespace Sys2Proof

/-- Why a word is not legal (R80). Raised by `decode`; the cycle turns every one of them into the fault
`IllegalInstruction` (R184). Safe: the spec names the fault for exactly these words. -/
inductive DecodeError where
  /-- an opcode number of 17 to 31 -/
  | unassignedOpcode
  /-- bits 35 to 32 not zero -/
  | reservedBits
  /-- a field that the format lacks is not zero -/
  | unusedField
  /-- register number 0, 6 or 7 in an `out` field -/
  | badOut
  /-- register number 6 or 7 in an `arg1` field -/
  | badArg1
  /-- with `T = 0`: register number 6 or 7, or bits 31 to 3 not zero -/
  | badArg2
  deriving DecidableEq, Repr

/-! ### The fields of R76 -/

/-- R76: `w[47:43]`. -/
def fieldOpcode (w : InstrWord) : BitVec 5 := w.extractLsb' 43 5

/-- R76: `w[42:40]`. -/
def fieldOut (w : InstrWord) : BitVec 3 := w.extractLsb' 40 3

/-- R76: `w[39:37]`. -/
def fieldArg1 (w : InstrWord) : BitVec 3 := w.extractLsb' 37 3

/-- R76: `w[36]`, the `arg2_type` bit `T`: 0 register, 1 const. -/
def fieldT (w : InstrWord) : BitVec 1 := w.extractLsb' 36 1

/-- R76: `w[35:32]`, reserved. -/
def fieldReserved (w : InstrWord) : BitVec 4 := w.extractLsb' 32 4

/-- R76: `w[31:0]`. -/
def fieldArg2 (w : InstrWord) : Word := w.extractLsb' 0 32

/-! ### The numbers of R77 and R78 -/

/-- R77, read from the number. -/
def opcodeOfNumber (n : BitVec 5) : Option Opcode :=
  match n.toNat with
  | 0 => some .add
  | 1 => some .sub
  | 2 => some .div
  | 3 => some .mod
  | 4 => some .mul
  | 5 => some .cmp
  | 6 => some .je
  | 7 => some .jne
  | 8 => some .jmp
  | 9 => some .out
  | 10 => some .in_
  | 11 => some .ld
  | 12 => some .sv
  | 13 => some .iret
  | 14 => some .sti
  | 15 => some .cli
  | 16 => some .halt
  | _ => none

/-- R78, read from the number; 6 is the name `pc`, which no field may carry, and 7 is unassigned. -/
def regOfNumber (n : BitVec 3) : Option Reg :=
  match n.toNat with
  | 0 => some .r0
  | 1 => some .r1
  | 2 => some .r2
  | 3 => some .r3
  | 4 => some .r4
  | 5 => some .sp
  | _ => none

/-! ### Decoding one slot -/

/-- The slot `out`: a number of 1 to 5 (R79). -/
def decodeOut (w : InstrWord) : Except DecodeError Reg :=
  match regOfNumber (fieldOut w) with
  | some r => if r.writable then .ok r else .error .badOut
  | none => .error .badOut

/-- The slot `arg1`: a number of 0 to 5 (R79). -/
def decodeArg1 (w : InstrWord) : Except DecodeError Reg :=
  match regOfNumber (fieldArg1 w) with
  | some r => .ok r
  | none => .error .badArg1

/-- The slot `arg2`: with `T = 1` the whole immediate; with `T = 0` a number of 0 to 5 under zeros (R79). -/
def decodeArg2 (w : InstrWord) : Except DecodeError Operand :=
  if fieldT w = 1#1 then .ok (.const (fieldArg2 w))
  else if (fieldArg2 w).extractLsb' 3 29 = 0#29 then
    match regOfNumber ((fieldArg2 w).extractLsb' 0 3) with
    | some r => .ok (.reg r)
    | none => .error .badArg2
  else .error .badArg2

/-- R79: "every field its format lacks is zero (including `T` and `arg2` for formats I and N)". -/
def unusedFieldsZero (f : Format) (w : InstrWord) : Bool :=
  (f.hasOut || fieldOut w == 0#3) &&
  (f.hasArg1 || fieldArg1 w == 0#3) &&
  (f.hasArg2 || (fieldT w == 0#1 && fieldArg2 w == 0#32))

/-! ### Decoding one format -/

/-- Format A: `out`, `arg1`, `arg2`. -/
def decodeA (w : InstrWord) (mk : Reg → Reg → Operand → Instr) : Except DecodeError Instr :=
  match decodeOut w with
  | .error e => .error e
  | .ok o =>
    match decodeArg1 w with
    | .error e => .error e
    | .ok a =>
      match decodeArg2 w with
      | .error e => .error e
      | .ok v => .ok (mk o a v)

/-- Format B: `arg1`, `arg2`. -/
def decodeB (w : InstrWord) (mk : Reg → Operand → Instr) : Except DecodeError Instr :=
  match decodeArg1 w with
  | .error e => .error e
  | .ok a =>
    match decodeArg2 w with
    | .error e => .error e
    | .ok v => .ok (mk a v)

/-- Format J: `arg2`. -/
def decodeJ (w : InstrWord) (mk : Operand → Instr) : Except DecodeError Instr :=
  match decodeArg2 w with
  | .error e => .error e
  | .ok v => .ok (mk v)

/-- Format L: `out`, `arg2`. -/
def decodeL (w : InstrWord) (mk : Reg → Operand → Instr) : Except DecodeError Instr :=
  match decodeOut w with
  | .error e => .error e
  | .ok o =>
    match decodeArg2 w with
    | .error e => .error e
    | .ok v => .ok (mk o v)

/-- Format I: `out`. -/
def decodeI (w : InstrWord) (mk : Reg → Instr) : Except DecodeError Instr :=
  match decodeOut w with
  | .error e => .error e
  | .ok o => .ok (mk o)

/-- The slots of an opcode whose word has no reserved and no unused bit set. -/
def decodeSlots (op : Opcode) (w : InstrWord) : Except DecodeError Instr :=
  match op with
  | .add => decodeA w .add
  | .sub => decodeA w .sub
  | .div => decodeA w .div
  | .mod => decodeA w .mod
  | .mul => decodeA w .mul
  | .cmp => decodeA w .cmp
  | .je => decodeB w .je
  | .jne => decodeB w .jne
  | .jmp => decodeJ w .jmp
  | .out => decodeJ w .out
  | .in_ => decodeI w .in_
  | .ld => decodeL w .ld
  | .sv => decodeB w .sv
  | .iret => .ok .iret
  | .sti => .ok .sti
  | .cli => .ok .cli
  | .halt => .ok .halt

/-- R79: `decode(w)` reads the opcode, finds its format, and builds the instruction from the fields the
format has; every word that is not legal is rejected by name (R80). -/
def decode (w : InstrWord) : Except DecodeError Instr :=
  match opcodeOfNumber (fieldOpcode w) with
  | none => .error .unassignedOpcode
  | some op =>
    if fieldReserved w = 0#4 then
      if unusedFieldsZero op.format w then decodeSlots op w else .error .unusedField
    else .error .reservedBits

/-- The instruction word whose bits, numbered as spec/opcode_table.json numbers them, are the low `nbits`
bits of `w`. The machine's instruction is ONE 48-bit word (R76), so bit 0 of the table is bit 0 of the
word, and every bit above `nbits` is 0. -/
def tableWord (nbits w : Nat) : InstrWord := BitVec.ofNat 48 (w % 2 ^ nbits)

/-- What the decoder reads from the instruction whose bits are `w`. -/
def decodeTableWord (nbits w : Nat) : Option Instr :=
  match decode (tableWord nbits w) with
  | .ok i => some i
  | .error _ => none

/-! ### The encoder -/

/-- The opcode of an instruction (R70). -/
def Instr.opcode : Instr → Opcode
  | .add _ _ _ => .add
  | .sub _ _ _ => .sub
  | .div _ _ _ => .div
  | .mod _ _ _ => .mod
  | .mul _ _ _ => .mul
  | .cmp _ _ _ => .cmp
  | .je _ _ => .je
  | .jne _ _ => .jne
  | .jmp _ => .jmp
  | .out _ => .out
  | .in_ _ => .in_
  | .ld _ _ => .ld
  | .sv _ _ => .sv
  | .iret => .iret
  | .sti => .sti
  | .cli => .cli
  | .halt => .halt

/-- R77. -/
def Opcode.number : Opcode → BitVec 5
  | .add => 0#5
  | .sub => 1#5
  | .div => 2#5
  | .mod => 3#5
  | .mul => 4#5
  | .cmp => 5#5
  | .je => 6#5
  | .jne => 7#5
  | .jmp => 8#5
  | .out => 9#5
  | .in_ => 10#5
  | .ld => 11#5
  | .sv => 12#5
  | .iret => 13#5
  | .sti => 14#5
  | .cli => 15#5
  | .halt => 16#5

/-- R78. -/
def Reg.number : Reg → BitVec 3
  | .r0 => 0#3
  | .r1 => 1#3
  | .r2 => 2#3
  | .r3 => 3#3
  | .r4 => 4#3
  | .sp => 5#3

/-- R76: the bit `T` of an operand. -/
def Operand.typeBit : Operand → BitVec 1
  | .reg _ => 0#1
  | .const _ => 1#1

/-- R76: the 32 bits of field `arg2` of an operand. -/
def Operand.field : Operand → Word
  | .reg r => 0#29 ++ r.number
  | .const imm => imm

/-- R76: the word with the given fields, the opcode in the highest bits, the reserved bits zero. -/
def packWord (op : Opcode) (out arg1 : BitVec 3) (t : BitVec 1) (arg2 : Word) : InstrWord :=
  op.number ++ out ++ arg1 ++ t ++ 0#4 ++ arg2

/-- R76, R79: the word of an instruction; a field that the format lacks is zero. -/
def encode : Instr → InstrWord
  | .add o a v => packWord .add o.number a.number v.typeBit v.field
  | .sub o a v => packWord .sub o.number a.number v.typeBit v.field
  | .div o a v => packWord .div o.number a.number v.typeBit v.field
  | .mod o a v => packWord .mod o.number a.number v.typeBit v.field
  | .mul o a v => packWord .mul o.number a.number v.typeBit v.field
  | .cmp o a v => packWord .cmp o.number a.number v.typeBit v.field
  | .je a v => packWord .je 0#3 a.number v.typeBit v.field
  | .jne a v => packWord .jne 0#3 a.number v.typeBit v.field
  | .jmp v => packWord .jmp 0#3 0#3 v.typeBit v.field
  | .out v => packWord .out 0#3 0#3 v.typeBit v.field
  | .in_ o => packWord .in_ o.number 0#3 0#1 0#32
  | .ld o v => packWord .ld o.number 0#3 v.typeBit v.field
  | .sv a v => packWord .sv 0#3 a.number v.typeBit v.field
  | .iret => packWord .iret 0#3 0#3 0#1 0#32
  | .sti => packWord .sti 0#3 0#3 0#1 0#32
  | .cli => packWord .cli 0#3 0#3 0#1 0#32
  | .halt => packWord .halt 0#3 0#3 0#1 0#32

end Sys2Proof
end

