-- ==== Sys2Proof/Machine/State.lean ====
section
/-! DEFINITION. The machine's state (spec 10_state.md, 20_memory.md), the reasons a cycle can stop
(60_exceptions.md R180 to R187), and the state right after reset (10_state.md R40). -/

namespace Sys2Proof.Machine

/-- The two memories an address fault can name (R182). -/
inductive Space where
  | data | instr
  deriving DecidableEq, Repr

/-- The fatal faults of R180. Each ends the run; the machine is left as it was before the faulting cycle
(R186), so a fault carries no state. -/
inductive Fault where
  /-- Right operand of `div` or `mod` is zero (R181). Safe: the spec names it. -/
  | arithError
  /-- An access at address `a`, read as a signed number, outside the memory of `space` (R182): raised by
  `ld`, `sv`, `iret`, the push of the interrupt entry, and fetch. Safe: the spec names it. -/
  | memoryError (space : Space) (a : Int)
  /-- `in` with an empty input latch (R183). Safe: the spec names it. -/
  | ioError
  /-- The word `w` fetched at `pc` is not legal (R184). Safe: the spec names it. -/
  | illegalInstruction (pc : Word) (w : InstrWord)
  /-- A cycle would start with `tick > TICK_BUDGET`, the optional host parameter (R185). Safe: the spec
  names it; never raised when the budget is unset. -/
  | budgetError
  deriving DecidableEq, Repr

/-- The refusals. No meaning of this model refuses. -/
inductive Refusal where
  /-- Raised by an arm of `exec` whose instruction has no meaning yet. Safe: the machine stops. No arm of
  this model raises it. -/
  | notModelled (mnemonic : String)
  deriving DecidableEq, Repr

/-- Data memory (R36): the cells that do not hold 0, as pairs of a cell address and its 32-bit word. The
smallest addressable unit is the 32-bit cell, and the memory has no byte view (R58; log entry 1). -/
abbrev Memory := List (Nat × Word)

/-- The canonical form: addresses strictly rising, and no entry equal to what an unlisted cell reads as,
which is 0 (R52, R53: cells above the declarations are zero-filled). -/
abbrev Memory.wf (m : Memory) : Prop :=
  m.Pairwise (fun p q => p.1 < q.1) ∧ ∀ p ∈ m, p.2 ≠ 0#32

/-- One entry of the input schedule (R34, R190): from tick `tick` on, the device has `char` to deliver. -/
structure InputEntry where
  tick : Nat
  char : Word
  deriving DecidableEq, Repr

/-- Everything the spec gives the machine (10_state.md; the list is INVENTORY.md, '## State'). `r0` is
hard-wired and has no field (R21); the ALU's latches and buses are not architectural (R39) and live in
`Latches` of Machine/DataPath.lean. -/
structure State where
  /-- R22 -/
  r1 : Word
  /-- R22 -/
  r2 : Word
  /-- R22 -/
  r3 : Word
  /-- R22 -/
  r4 : Word
  /-- R25: the stack pointer of the interrupt mechanism, a cell address. -/
  sp : Word
  /-- R24: an index into instruction memory. -/
  pc : Word
  /-- R26 -/
  zeroFlag : Bool
  /-- R30: ticks since reset, unbounded. -/
  tick : Nat
  /-- R31: completed instruction cycles since reset, unbounded. -/
  instrCounter : Nat
  /-- R28 -/
  interruptsEnabled : Bool
  /-- R29 -/
  inInterrupt : Bool
  /-- R32 -/
  halted : Bool
  /-- R33: empty, or full with a codepoint held as a word. -/
  inputLatch : Option Word
  /-- R34, R190: read-only after load. -/
  schedule : List InputEntry
  /-- R34: the index of the first entry not yet consumed. -/
  cursor : Nat
  /-- R35, oldest value first. -/
  outputBuffer : List OutChar
  /-- `DMEM_SIZE` (R5, R36), fixed by the host at load. -/
  dmemSize : Nat
  /-- R36 -/
  dmem : Memory
  /-- R37, R56, R76: entry `k` is the `k`-th word; `IMEM_SIZE` is the length. Never written (R64). -/
  imem : List InstrWord
  /-- `TICK_BUDGET` (R185), unset in a model of the hardware proper. -/
  tickBudget : Option Nat
  /-- The MODEL's own: how many free values of `zero_flag` have been drawn (log entry 8). -/
  freeCount : Nat
  deriving DecidableEq, Repr

/-- The machine right after reset (R40), with nothing loaded: an empty program, the vector cell zero, an
empty input schedule, no tick budget. DESIGN CHOICE, unsafe: `r1` to `r4` are 0 (log entry 4), `zero_flag`
is false (log entry 5), `DMEM_SIZE` is 2^31, whence `sp` is 2^31 - 1 (log entry 6). The reset state of any
program, memory size and register values is `load` of Machine/Boot.lean (log entries 3 and 15). -/
def State.reset : State where
  r1 := 0#32
  r2 := 0#32
  r3 := 0#32
  r4 := 0#32
  sp := 0x7FFFFFFF#32
  pc := 0#32
  zeroFlag := false
  tick := 0
  instrCounter := 0
  interruptsEnabled := false
  inInterrupt := false
  halted := false
  inputLatch := none
  schedule := []
  cursor := 0
  outputBuffer := []
  dmemSize := 2147483648
  dmem := []
  imem := []
  tickBudget := none
  freeCount := 0

end Sys2Proof.Machine
end

