-- ==== Sys2Proof/Machine/Alu.lean ====
section
/-! DEFINITION. The ALU (spec 40_instruction_cycle.md R118, R119): operands are read as signed integers,
the result is computed exactly, and narrowed once at the end. -/

namespace Sys2Proof.Machine

/-- R7: the word congruent to `z` modulo 2^32. -/
def wrap32 (z : Int) : Word := BitVec.ofInt 32 z

/-- R119: the integer `q` with `|q| = floor(|a| / |b|)` and the sign of `a * b`. -/
def tdiv (a b : Int) : Int :=
  let q : Int := ((a.natAbs / b.natAbs : Nat) : Int)
  if decide (a < 0) = decide (b < 0) then q else -q

/-- R119: the remainder that pairs with `tdiv`. -/
def tmod (a b : Int) : Int := a - b * tdiv a b

/-- R118, the ALU's operations. `INC`, `DEC`, `LEFT`, `RIGHT` and `NOP` are no instructions; the control
unit's own sequences use them (R121). -/
inductive AluOp where
  | inc | dec | add | sub | mul | div | mod | cmp | left | right | nop
  deriving DecidableEq, Repr

/-- R118: the 32-bit result on the ALU bus. `nopBus` is what the bus holds after `NOP`, a value the spec
leaves unspecified: the caller supplies the free value (log entry 9). -/
def alu (op : AluOp) (l r nopBus : Word) : Except Fault Word :=
  match op with
  | .add => .ok (wrap32 (l.toInt + r.toInt))
  | .sub => .ok (wrap32 (l.toInt - r.toInt))
  | .mul => .ok (wrap32 (l.toInt * r.toInt))
  | .div => if r.toInt = 0 then .error .arithError else .ok (wrap32 (tdiv l.toInt r.toInt))
  | .mod => if r.toInt = 0 then .error .arithError else .ok (wrap32 (tmod l.toInt r.toInt))
  | .cmp => .ok (wrap32 (l.toInt - r.toInt))
  | .inc => .ok (wrap32 (l.toInt + 1))
  | .dec => .ok (wrap32 (l.toInt - 1))
  | .left => .ok l
  | .right => .ok r
  | .nop => .ok nopBus

/-- R24, R106: the fetch increment, `wrap32(pc + 1)`. -/
def nextPc (pc : Word) : Word := wrap32 (pc.toInt + 1)

end Sys2Proof.Machine
end

