-- ==== Sys2Proof/Machine/Flags.lean ====
section
/-! DEFINITION. The one status flag (spec 10_state.md R26, 40_instruction_cycle.md R120). -/

namespace Sys2Proof.Machine

/-- R26, R120: 1 exactly when the 32-bit wrapped result is zero. -/
def zeroOf (result : Word) : Bool := result == 0#32

/-- Write `zero_flag`. -/
def State.setZeroFlag (s : State) (b : Bool) : State := { s with zeroFlag := b }

/-- R26, 92_eei_decisions.md D16: `zero_flag` becomes unspecified. It takes the next free value
(log entry 8); nothing else of the spec's state changes. -/
def State.freeFlag (s : State) : State :=
  { s with zeroFlag := Config.freeZeroFlag s.freeCount, freeCount := s.freeCount + 1 }

end Sys2Proof.Machine
end

