-- ==== Sys2Proof/Machine/Ops.lean ====
section
/-! DEFINITION. The named operations over registers, memories, control state and the device (spec
10_state.md, 20_memory.md), and taking an interrupt and returning from one (60_exceptions.md R190 to R199,
45_system.md R170). -/

namespace Sys2Proof.Machine

/-! ### Data memory as a list of cells -/

/-- The word of one cell; a cell that is not listed holds 0 (R52). -/
def Memory.read : Memory → Nat → Word
  | [], _ => 0#32
  | (b, w) :: m, a => if a = b then w else Memory.read m a

/-- Write one cell, keeping the canonical form: writing 0 removes the entry. -/
def Memory.write : Memory → Nat → Word → Memory
  | [], a, v => if v = 0#32 then [] else [(a, v)]
  | (b, w) :: m, a, v =>
    if a < b then (if v = 0#32 then (b, w) :: m else (a, v) :: (b, w) :: m)
    else if a = b then (if v = 0#32 then m else (b, v) :: m)
    else (b, w) :: Memory.write m a v

/-- The memory whose cells from `start` on hold the given words, and 0 everywhere else (R52). -/
def Memory.ofData (start : Nat) : List Word → Memory
  | [] => []
  | v :: vs => if v = 0#32 then Memory.ofData (start + 1) vs else (start, v) :: Memory.ofData (start + 1) vs

/-! ### Registers -/

/-- R8 `x[r]`, R21: `r0` reads as 0 in every state. -/
def State.readReg (s : State) : Reg → Word
  | .r0 => 0#32
  | .r1 => s.r1
  | .r2 => s.r2
  | .r3 => s.r3
  | .r4 => s.r4
  | .sp => s.sp

/-- R8 `x[r] <- v`, R21: a write to `r0` is discarded. -/
def State.writeReg (s : State) (r : Reg) (v : Word) : State :=
  match r with
  | .r0 => s
  | .r1 => { s with r1 := v }
  | .r2 => { s with r2 := v }
  | .r3 => { s with r3 := v }
  | .r4 => { s with r4 := v }
  | .sp => { s with sp := v }

/-! ### Control state, the latch, the cursor and the output buffer -/

/-- R8 `pc <- t`. -/
def State.setPc (s : State) (v : Word) : State := { s with pc := v }

/-- Write both interrupt flags (R28, R29). -/
def State.setInterrupts (s : State) (enabled inHandler : Bool) : State :=
  { s with interruptsEnabled := enabled, inInterrupt := inHandler }

/-- R171, R172: write `interrupts_enabled` alone. -/
def State.setEnabled (s : State) (enabled : Bool) : State := { s with interruptsEnabled := enabled }

/-- R32, R173. -/
def State.setHalted (s : State) : State := { s with halted := true }

/-- R33. -/
def State.setLatch (s : State) (c : Option Word) : State := { s with inputLatch := c }

/-- R34: move the input cursor. -/
def State.setCursor (s : State) (k : Nat) : State := { s with cursor := k }

/-- R161: append the low 21 bits of a word to the output buffer. -/
def State.emit (s : State) (v : Word) : State :=
  { s with outputBuffer := s.outputBuffer ++ [v.extractLsb' 0 21] }

/-- R30. -/
def State.addTicks (s : State) (n : Nat) : State := { s with tick := s.tick + n }

/-- Steps 4 and 5 of the cycle (R101, R106, R107, R108): `pc <- next`, one more completed cycle, and the
instruction's cost in ticks. -/
def State.retire (s : State) (next : Word) (cost : Nat) : State :=
  { s with pc := next, instrCounter := s.instrCounter + 1, tick := s.tick + cost }

/-! ### Access primitives -/

/-- R51: an address is valid when its signed value is in `[0, DMEM_SIZE)`. -/
def State.validAddr (s : State) (a : Word) : Bool := decide (0 ≤ a.toInt ∧ a.toInt < (s.dmemSize : Int))

/-- The word of data cell `a`. -/
def State.readCell (s : State) (a : Nat) : Word := Memory.read s.dmem a

/-- Put a word into data cell `a`. -/
def State.writeCell (s : State) (a : Nat) (v : Word) : State := { s with dmem := Memory.write s.dmem a v }

/-- R54 `MemRead(a, 1)`. -/
def memRead (s : State) (a : Word) : Except Fault Word :=
  if s.validAddr a then .ok (s.readCell a.toNat) else .error (.memoryError .data a.toInt)

/-- R55 `MemWrite(a, 1, v)`. -/
def memWrite (s : State) (a v : Word) : Except Fault State :=
  if s.validAddr a then .ok (s.writeCell a.toNat v) else .error (.memoryError .data a.toInt)

/-- R57 `IFetch(pc)`, R103: `pc` is compared signed with `[0, IMEM_SIZE)`. -/
def fetch (s : State) : Except Fault InstrWord :=
  if s.pc.toInt < 0 then .error (.memoryError .instr s.pc.toInt)
  else
    match s.imem[s.pc.toNat]? with
    | some w => .ok w
    | none => .error (.memoryError .instr s.pc.toInt)

/-! ### The input device and the interrupt -/

/-- R191: the entry the device requests delivery of, if the one at the cursor is due. -/
def State.request (s : State) : Option InputEntry :=
  match s.schedule[s.cursor]? with
  | some e => if e.tick ≤ s.tick then some e else none
  | none => none

/-- How many entries the loop of R192 passes: the due ones from the cursor on, up to the first not due. -/
def State.dueCount (s : State) : Nat :=
  ((s.schedule.drop s.cursor).takeWhile (fun e => decide (e.tick ≤ s.tick))).length

/-- R195 `InterruptEntry(c)`, TAKING THE INTERRUPT: consume the entry, push `pc` at the decremented `sp`,
load `pc` from the vector cell 0, set `in_interrupt`, fill the latch, clear `interrupts_enabled`, add 4
ticks. The push precedes the vector read (R62 c). `zero_flag` is unspecified afterwards (D16). -/
def interruptEntry (c : Word) (s : State) : Except Fault State :=
  let s1 := (s.setCursor (s.cursor + 1)).writeReg .sp (wrap32 (s.sp.toInt - 1))
  match memWrite s1 s1.sp s.pc with
  | .error f => .error f
  | .ok s2 =>
    match memRead s2 0#32 with
    | .error f => .error f
    | .ok vector =>
      .ok (((((s2.setPc vector).setInterrupts false true).setLatch (some c)).freeFlag).addTicks 4)

/-- R170, R198, RETURNING FROM THE INTERRUPT: the popped word, which the pc updater takes as `next_pc`, and
the state with `sp` incremented, `in_interrupt` cleared and `interrupts_enabled` set. It makes no check that
an interrupt is in progress (D18). -/
def interruptReturn (s : State) : Except Fault (Word × State) :=
  match memRead s s.sp with
  | .error f => .error f
  | .ok a => .ok (a, (s.writeReg .sp (wrap32 (s.sp.toInt + 1))).setInterrupts true false)

/-- R192, step 1 of every cycle: inside a handler every due entry is dropped (R193); otherwise a due entry
is taken if interrupts are enabled (R195) and held if they are not (R194). -/
def interruptCheck (s : State) : Except Fault State :=
  if s.inInterrupt then .ok (s.setCursor (s.cursor + s.dueCount))
  else if s.interruptsEnabled then
    match s.request with
    | some e => interruptEntry e.char s
    | none => .ok s
  else .ok s

end Sys2Proof.Machine
end

