-- ==== Sys2Proof/Machine/Cycle.lean ====
section
/-! DEFINITION. The front part of the instruction cycle (spec 40_instruction_cycle.md R101, steps 0 to 2):
the budget test, the interrupt check, fetch and decode, in the order that decides which fault wins
(60_exceptions.md R200). And the placing of a word where the next cycle fetches. -/

namespace Sys2Proof.Machine

/-- R185: a cycle that would start with `tick > TICK_BUDGET`, when the host set one. -/
def State.budgetExceeded (s : State) : Bool :=
  match s.tickBudget with
  | none => false
  | some b => decide (b < s.tick)

/-- Step 2 and decoding: the instruction at `pc`, or the fault of the fetch (R57) or of an illegal word
(R80, R184). -/
def fetchDecode (s : State) : Except Fault Instr :=
  match fetch s with
  | .error f => .error f
  | .ok w =>
    match decode w with
    | .ok i => .ok i
    | .error _ => .error (.illegalInstruction s.pc w)

/-- Steps 0 to 2 of a cycle that is not kept from starting by `halted`: the instruction to execute, and the
state it executes in, which is the state after the interrupt check (R103). -/
def beginCycle (s : State) : Except Fault (Instr × State) :=
  if s.budgetExceeded then .error .budgetError
  else
    match interruptCheck s with
    | .error f => .error f
    | .ok s1 =>
      match fetchDecode s1 with
      | .error f => .error f
      | .ok i => .ok (i, s1)

/-- Put `w` at index `k` of a list of words; entries the list lacked below `k` are the illegal word 0. -/
def placeWord : List InstrWord → Nat → InstrWord → List InstrWord
  | [], 0, w => [w]
  | [], k + 1, w => 0#48 :: placeWord [] k w
  | _ :: ws, 0, w => w :: ws
  | x :: ws, k + 1, w => x :: placeWord ws k w

/-- The state with `w` at the entry of instruction memory that the next cycle fetches: the entry at the `pc`
that holds after the interrupt check. What would keep the next cycle from fetching is set too: `halted` and
an exceeded tick budget are cleared, and where no entry could be fetched (the interrupt entry faults, or
`pc` is negative) `pc` is 0 and interrupts are masked (log entry 3). -/
def State.placeNext (s : State) (w : InstrWord) : State :=
  let s0 := { s with halted := false, tickBudget := if s.budgetExceeded then none else s.tickBudget }
  match interruptCheck s0 with
  | .ok s1 =>
    if s1.pc.toInt < 0 then { s0 with pc := 0#32, interruptsEnabled := false, imem := placeWord s.imem 0 w }
    else { s0 with imem := placeWord s.imem s1.pc.toNat w }
  | .error _ => { s0 with pc := 0#32, interruptsEnabled := false, imem := placeWord s.imem 0 w }

end Sys2Proof.Machine
end

