-- ==== Sys2Proof/Machine/Operands.lean ====
section
/-! DEFINITION. Operand values (spec 40_instruction_cycle.md R105; 30_encoding.md R73, R75). -/

namespace Sys2Proof.Machine

/-- R105, the source's `resolve(val)`: a register's current value, or the immediate. -/
def State.val (s : State) : Operand → Word
  | .reg r => s.readReg r
  | .const imm => imm

end Sys2Proof.Machine
end

