-- ==== Sys2Proof/Machine/Arithmetic.lean ====
section
/-! DEFINITION. The arithmetic instructions add, sub, mul, div, mod, cmp (spec 41_arithmetic.md). -/

namespace Sys2Proof.Machine

/-- What the six share (41_arithmetic.md, "Common to all six"): both operands are read before `out` is
written, the result goes to `out`, `zero_flag` says whether it is zero, `pc` advances by one, 1 tick. -/
def arith (op : AluOp) (out arg1 : Reg) (arg2 : Operand) (s : State) : Host.Outcome State Fault Refusal :=
  match alu op (s.readReg arg1) (s.val arg2) 0#32 with
  | .error f => .fault f
  | .ok v => .next (((s.writeReg out v).setZeroFlag (zeroOf v)).retire (nextPc s.pc) 1)

/-- R130 -/
def execAdd (out arg1 : Reg) (arg2 : Operand) (s : State) : Host.Outcome State Fault Refusal :=
  arith .add out arg1 arg2 s

/-- R131 -/
def execSub (out arg1 : Reg) (arg2 : Operand) (s : State) : Host.Outcome State Fault Refusal :=
  arith .sub out arg1 arg2 s

/-- R133: `ArithError` when the right operand is zero, before any write. -/
def execDiv (out arg1 : Reg) (arg2 : Operand) (s : State) : Host.Outcome State Fault Refusal :=
  arith .div out arg1 arg2 s

/-- R134: `ArithError` when the right operand is zero, before any write. -/
def execMod (out arg1 : Reg) (arg2 : Operand) (s : State) : Host.Outcome State Fault Refusal :=
  arith .mod out arg1 arg2 s

/-- R132 -/
def execMul (out arg1 : Reg) (arg2 : Operand) (s : State) : Host.Outcome State Fault Refusal :=
  arith .mul out arg1 arg2 s

/-- R135: writes the signed difference (90_conflicts.md C2). -/
def execCmp (out arg1 : Reg) (arg2 : Operand) (s : State) : Host.Outcome State Fault Refusal :=
  arith .cmp out arg1 arg2 s

end Sys2Proof.Machine
end

