-- ==== Sys2Proof/Machine/Control.lean ====
section
/-! DEFINITION. The control-transfer instructions je, jne, jmp (spec 42_control_transfer.md). The target
is absolute and is not checked; `zero_flag` is unspecified afterwards (R26). -/

namespace Sys2Proof.Machine

/-- A conditional jump (R140, R141): 2 ticks to the target when taken, else 1 tick and the next
instruction (R106, R107). -/
def branch (taken : Bool) (arg2 : Operand) (s : State) : State :=
  if taken then s.freeFlag.retire (s.val arg2) 2 else s.freeFlag.retire (nextPc s.pc) 1

/-- R140: jump if the register is zero. -/
def execJe (arg1 : Reg) (arg2 : Operand) (s : State) : Host.Outcome State Fault Refusal :=
  .next (branch (zeroOf (s.readReg arg1)) arg2 s)

/-- R141: jump if the register is not zero. -/
def execJne (arg1 : Reg) (arg2 : Operand) (s : State) : Host.Outcome State Fault Refusal :=
  .next (branch (!zeroOf (s.readReg arg1)) arg2 s)

/-- R142 -/
def execJmp (arg2 : Operand) (s : State) : Host.Outcome State Fault Refusal :=
  .next (s.freeFlag.retire (s.val arg2) 1)

end Sys2Proof.Machine
end

