-- ==== Sys2Proof/Machine/LoadStore.lean ====
section
/-! DEFINITION. The load and store instructions ld, sv (spec 43_load_store.md). `zero_flag` is unspecified
afterwards (R26). -/

namespace Sys2Proof.Machine

/-- R150: `x[out] <- MemRead(EA, 1)` with `EA = val(i)`; a bad address faults before `out` is written. -/
def execLd (out : Reg) (arg2 : Operand) (s : State) : Host.Outcome State Fault Refusal :=
  match memRead s (s.val arg2) with
  | .error f => .fault f
  | .ok v => .next ((s.writeReg out v).freeFlag.retire (nextPc s.pc) 1)

/-- R151: `MemWrite(EA, 1, x[arg1])` with `EA = val(i)`. -/
def execSv (arg1 : Reg) (arg2 : Operand) (s : State) : Host.Outcome State Fault Refusal :=
  match memWrite s (s.val arg2) (s.readReg arg1) with
  | .error f => .fault f
  | .ok t => .next (t.freeFlag.retire (nextPc s.pc) 1)

end Sys2Proof.Machine
end

