-- ==== Sys2Proof/Machine/PortIO.lean ====
section
/-! DEFINITION. The port I/O instructions in, out (spec 44_io.md). `zero_flag` is unspecified afterwards
(R26). -/

namespace Sys2Proof.Machine

/-- R160: copy the latch's codepoint to `out` and empty the latch; `IOError` when it is empty. -/
def execIn (out : Reg) (s : State) : Host.Outcome State Fault Refusal :=
  match s.inputLatch with
  | none => .fault .ioError
  | some c => .next (((s.writeReg out c).setLatch none).freeFlag.retire (nextPc s.pc) 1)

/-- R161: append the low 21 bits of the operand to the output buffer. -/
def execOut (arg2 : Operand) (s : State) : Host.Outcome State Fault Refusal :=
  .next ((s.emit (s.val arg2)).freeFlag.retire (nextPc s.pc) 1)

end Sys2Proof.Machine
end

