-- ==== Sys2Proof/Machine/System.lean ====
section
/-! DEFINITION. The system instructions iret, sti, cli, halt (spec 45_system.md). `zero_flag` is
unspecified afterwards (R26). -/

namespace Sys2Proof.Machine

/-- R170: return from interrupt, 2 ticks; the popped word becomes `pc` exactly. -/
def execIret (s : State) : Host.Outcome State Fault Refusal :=
  match interruptReturn s with
  | .error f => .fault f
  | .ok (next, t) => .next (t.freeFlag.retire next 2)

/-- R171 -/
def execSti (s : State) : Host.Outcome State Fault Refusal :=
  .next ((s.setEnabled true).freeFlag.retire (nextPc s.pc) 1)

/-- R172 -/
def execCli (s : State) : Host.Outcome State Fault Refusal :=
  .next ((s.setEnabled false).freeFlag.retire (nextPc s.pc) 1)

/-- R173: a full cycle that also sets `halted` (92_eei_decisions.md D12). -/
def execHalt (s : State) : Host.Outcome State Fault Refusal :=
  .next (s.setHalted.freeFlag.retire (nextPc s.pc) 1)

end Sys2Proof.Machine
end

