-- ==== Sys2Proof/Machine/Dispatch.lean ====
section
/-! DEFINITION. Decode dispatch (spec 40_instruction_cycle.md R104): one arm per opcode. -/

namespace Sys2Proof.Machine

/-- Steps 3 to 5 of the cycle (R101) for one instruction: its effect, the pc update and the counters. -/
def exec (i : Instr) (s : State) : Host.Outcome State Fault Refusal :=
  match i with
  | .add out arg1 arg2 => Sys2Proof.Machine.execAdd out arg1 arg2 s
  | .sub out arg1 arg2 => Sys2Proof.Machine.execSub out arg1 arg2 s
  | .div out arg1 arg2 => Sys2Proof.Machine.execDiv out arg1 arg2 s
  | .mod out arg1 arg2 => Sys2Proof.Machine.execMod out arg1 arg2 s
  | .mul out arg1 arg2 => Sys2Proof.Machine.execMul out arg1 arg2 s
  | .cmp out arg1 arg2 => Sys2Proof.Machine.execCmp out arg1 arg2 s
  | .je arg1 arg2 => Sys2Proof.Machine.execJe arg1 arg2 s
  | .jne arg1 arg2 => Sys2Proof.Machine.execJne arg1 arg2 s
  | .jmp arg2 => Sys2Proof.Machine.execJmp arg2 s
  | .out arg2 => Sys2Proof.Machine.execOut arg2 s
  | .in_ out => Sys2Proof.Machine.execIn out s
  | .ld out arg2 => Sys2Proof.Machine.execLd out arg2 s
  | .sv arg1 arg2 => Sys2Proof.Machine.execSv arg1 arg2 s
  | .iret => Sys2Proof.Machine.execIret s
  | .sti => Sys2Proof.Machine.execSti s
  | .cli => Sys2Proof.Machine.execCli s
  | .halt => Sys2Proof.Machine.execHalt s

end Sys2Proof.Machine
end

