-- ==== Sys2Proof/Machine/Step.lean ====
section
/-! DEFINITION. One step of the machine: one instruction cycle (spec 40_instruction_cycle.md R101, R102). -/

namespace Sys2Proof.Machine

/-- R101: one instruction cycle. In the halted state no cycle starts and the state stays as it is
(R32, R212; log entry 10). A fault ends the run and leaves the state it was given (R186, log entry 12). -/
def step (s : State) : Host.Outcome State Fault Refusal :=
  if s.halted then .next s
  else
    match beginCycle s with
    | .error f => .fault f
    | .ok (i, s1) => exec i s1

/-- `s` with the instruction whose bits are `w` (numbered as spec/opcode_table.json numbers them) stored
where `step` fetches its next instruction. -/
def State.withFetchWord (s : State) (nbits w : Nat) : State := s.placeNext (tableWord nbits w)

end Sys2Proof.Machine
end

