-- ==== Sys2Proof/Machine/Boot.lean ====
section
/-! DEFINITION. The instruction record read as an instruction (spec 30_encoding.md R71 to R74), and the load
of an artifact before reset is released (20_memory.md R52, 70_reset_and_hazards.md R221). -/

namespace Sys2Proof

/-! ### Records and instructions -/

/-- R23: the operand register a name stands for; `pc` is in no operand class. -/
def RegName.toReg? : RegName → Option Reg
  | .r0 => some .r0
  | .r1 => some .r1
  | .r2 => some .r2
  | .r3 => some .r3
  | .r4 => some .r4
  | .sp => some .sp
  | .pc => none

/-- R20: the name of an operand register. -/
def Reg.toName : Reg → RegName
  | .r0 => .r0
  | .r1 => .r1
  | .r2 => .r2
  | .r3 => .r3
  | .r4 => .r4
  | .sp => .sp

/-- A present slot `out` that is in `wreg` (R74 c). -/
def Record.out? (r : Record) : Option Reg :=
  match r.out with
  | some n => if n.isWreg then n.toReg? else none
  | none => none

/-- A present slot `arg1` that is in `reg` (R74 d). -/
def Record.arg1? (r : Record) : Option Reg :=
  match r.arg1 with
  | some n => n.toReg?
  | none => none

/-- A present slot `arg2` of the class its type names (R74 e). -/
def Record.arg2? (r : Record) : Option Operand :=
  match r.arg2, r.arg2Type with
  | some (.name n), some .register =>
    match n.toReg? with
    | some q => some (.reg q)
    | none => none
  | some (.int z), some .const => if -2 ^ 31 ≤ z ∧ z ≤ 2 ^ 31 - 1 then some (.const (BitVec.ofInt 32 z)) else none
  | _, _ => none

/-- The slot `out` is absent. -/
def Record.noOut (r : Record) : Bool := r.out.isNone

/-- The slot `arg1` is absent. -/
def Record.noArg1 (r : Record) : Bool := r.arg1.isNone

/-- The slot `arg2` and its type are absent. -/
def Record.noArg2 (r : Record) : Bool := r.arg2.isNone && r.arg2Type.isNone

/-- A record of format A. -/
def Record.asA (r : Record) (mk : Reg → Reg → Operand → Instr) : Option Instr :=
  match r.out?, r.arg1?, r.arg2? with
  | some o, some a, some v => some (mk o a v)
  | _, _, _ => none

/-- A record of format B. -/
def Record.asB (r : Record) (mk : Reg → Operand → Instr) : Option Instr :=
  match r.noOut, r.arg1?, r.arg2? with
  | true, some a, some v => some (mk a v)
  | _, _, _ => none

/-- A record of format J. -/
def Record.asJ (r : Record) (mk : Operand → Instr) : Option Instr :=
  match r.noOut && r.noArg1, r.arg2? with
  | true, some v => some (mk v)
  | _, _ => none

/-- A record of format L. -/
def Record.asL (r : Record) (mk : Reg → Operand → Instr) : Option Instr :=
  match r.out?, r.noArg1, r.arg2? with
  | some o, true, some v => some (mk o v)
  | _, _, _ => none

/-- A record of format I. -/
def Record.asI (r : Record) (mk : Reg → Instr) : Option Instr :=
  match r.out?, r.noArg1 && r.noArg2 with
  | some o, true => some (mk o)
  | _, _ => none

/-- A record of format N. -/
def Record.asN (r : Record) (i : Instr) : Option Instr :=
  if r.noOut && r.noArg1 && r.noArg2 then some i else none

/-- The instruction a record stands for; none for an ill-formed record (R74). -/
def Record.toInstr? (r : Record) : Option Instr :=
  match r.opcode with
  | .add => r.asA .add
  | .sub => r.asA .sub
  | .div => r.asA .div
  | .mod => r.asA .mod
  | .mul => r.asA .mul
  | .cmp => r.asA .cmp
  | .je => r.asB .je
  | .jne => r.asB .jne
  | .jmp => r.asJ .jmp
  | .out => r.asJ .out
  | .in_ => r.asI .in_
  | .ld => r.asL .ld
  | .sv => r.asB .sv
  | .iret => r.asN .iret
  | .sti => r.asN .sti
  | .cli => r.asN .cli
  | .halt => r.asN .halt

/-- The `arg2` field of the record of an operand. -/
def Operand.toRaw : Operand → RawArg
  | .reg r => .name r.toName
  | .const imm => .int imm.toInt

/-- The `arg2_type` field of the record of an operand. -/
def Operand.argType : Operand → ArgType
  | .reg _ => .register
  | .const _ => .const

/-- R71: "Fields are omitted when the opcode's arity does not use them." -/
def Record.of (op : Opcode) (out arg1 : Option Reg) (arg2 : Option Operand) : Record where
  opcode := op
  out := out.map Reg.toName
  arg1 := arg1.map Reg.toName
  arg2 := arg2.map Operand.toRaw
  arg2Type := arg2.map Operand.argType

/-- The record of an instruction (R71, R72). -/
def Instr.toRecord : Instr → Record
  | .add o a v => Record.of .add (some o) (some a) (some v)
  | .sub o a v => Record.of .sub (some o) (some a) (some v)
  | .div o a v => Record.of .div (some o) (some a) (some v)
  | .mod o a v => Record.of .mod (some o) (some a) (some v)
  | .mul o a v => Record.of .mul (some o) (some a) (some v)
  | .cmp o a v => Record.of .cmp (some o) (some a) (some v)
  | .je a v => Record.of .je none (some a) (some v)
  | .jne a v => Record.of .jne none (some a) (some v)
  | .jmp v => Record.of .jmp none none (some v)
  | .out v => Record.of .out none none (some v)
  | .in_ o => Record.of .in_ (some o) none none
  | .ld o v => Record.of .ld (some o) none (some v)
  | .sv a v => Record.of .sv none (some a) (some v)
  | .iret => Record.of .iret none none none
  | .sti => Record.of .sti none none none
  | .cli => Record.of .cli none none none
  | .halt => Record.of .halt none none none

namespace Machine

/-! ### The load -/

/-- What the host fixes before a run besides the artifact (R210, R5): `DMEM_SIZE`, the input schedule as
the host states it, the optional `TICK_BUDGET`, and the values the spec leaves open at reset (R41). -/
structure Setup where
  dmemSize : Nat
  schedule : List (Int × Nat) := []
  tickBudget : Option Nat := none
  r1 : Word := 0#32
  r2 : Word := 0#32
  r3 : Word := 0#32
  r4 : Word := 0#32
  zeroFlag : Bool := false
  deriving DecidableEq, Repr

/-- Why a load is refused: then no run exists. Safe: the spec refuses each of these loads (log entry 19). -/
inductive LoadRefusal where
  /-- an ill-formed record, at this index of `code` (R74) -/
  | illFormedInstruction (index : Nat)
  /-- more than 2^31 instructions (R5 `IMEM_SIZE`) -/
  | tooManyInstructions
  /-- `data` lacks the vector cell: `len(data) = V + D >= 1` (R52) -/
  | noVectorCell
  /-- `DMEM_SIZE` is not in `[len(data), 2^31]` (R5, R52) -/
  | badDataMemorySize
  /-- the schedule has a negative tick, is not non-decreasing in tick (R190), or holds a number that is no
  codepoint (R34) -/
  | badSchedule
  deriving DecidableEq, Repr

/-- The words of a code array whose first record has index `k`, or the index of its first ill-formed
record (R52, R74). -/
def encodeCode (k : Nat) : List Record → Except Nat (List InstrWord)
  | [] => .ok []
  | r :: rs =>
    match r.toInstr? with
    | none => .error k
    | some i =>
      match encodeCode (k + 1) rs with
      | .error j => .error j
      | .ok ws => .ok (encode i :: ws)

/-- R190: the schedule's contract: no negative tick, non-decreasing ticks, and each character a codepoint. -/
def scheduleOk : List (Int × Nat) → Bool
  | [] => true
  | [(t, c)] => decide (0 ≤ t) && decide (c ≤ Config.maxCodepoint)
  | (t, c) :: (t', c') :: es =>
    decide (0 ≤ t) && decide (c ≤ Config.maxCodepoint) && decide (t ≤ t') && scheduleOk ((t', c') :: es)

/-- The schedule as the device holds it. -/
def toSchedule (es : List (Int × Nat)) : List InputEntry :=
  es.map fun e => ⟨e.1.toNat, BitVec.ofNat 32 e.2⟩

/-- The reset state of a load that the checks have passed (R40, R221). -/
def bootState (code : List InstrWord) (data : List Word) (h : Setup) : State where
  r1 := h.r1
  r2 := h.r2
  r3 := h.r3
  r4 := h.r4
  sp := wrap32 ((h.dmemSize : Int) - 1)
  pc := 0#32
  zeroFlag := h.zeroFlag
  tick := 0
  instrCounter := 0
  interruptsEnabled := false
  inInterrupt := false
  halted := false
  inputLatch := none
  schedule := toSchedule h.schedule
  cursor := 0
  outputBuffer := []
  dmemSize := h.dmemSize
  dmem := Memory.ofData 0 data
  imem := code
  tickBudget := h.tickBudget
  freeCount := 0

/-- R52, R220, R221: load an artifact and take the reset state, or refuse the load. -/
def load (a : Artifact) (h : Setup) : Except LoadRefusal State :=
  match encodeCode 0 a.code with
  | .error k => .error (.illFormedInstruction k)
  | .ok code =>
    if Config.maxEntries < code.length then .error .tooManyInstructions
    else if a.data.length < Config.vectorCells then .error .noVectorCell
    else if h.dmemSize < a.data.length ∨ Config.maxEntries < h.dmemSize then .error .badDataMemorySize
    else if scheduleOk h.schedule then .ok (bootState code a.data h)
    else .error .badSchedule

end Machine
end Sys2Proof
end

