-- ==== Sys2Proof/Machine/DataPath.lean ====
section
/-! DEFINITION. The DataPath below the instructions: its signals (spec 40_instruction_cycle.md R109 to R117)
and the micro-operation sequences of R121. The instruction rules, not these sequences, are normative
(R121); that the sequences have the instructions' effect is a statement of this package. -/

namespace Sys2Proof.Machine

/-- What `select_operands` can select: a register of the file, or `pc`, which the control unit supplies as
data for the push and selects as the destination of a jump (R113, R115). -/
inductive Port where
  | reg (r : Reg)
  | pc
  deriving DecidableEq, Repr

/-- The DataPath's internal latches, buses and operand selection (R39, R109). Not architectural: no value in
them survives a cycle in any rule (log entry 14). -/
structure Latches where
  /-- `op1_reg` as selected -/
  op1 : Port
  /-- `op2_reg` as selected -/
  op2 : Port
  /-- `out_reg` as selected -/
  out : Port
  /-- the ALU's left input latch -/
  left : Word
  /-- the ALU's right input latch -/
  right : Word
  aluBus : Word
  /-- the value that `read_memory` or `input_from_device` put on the output bus path in this tick (R113) -/
  outPath : Option Word
  deriving DecidableEq, Repr

/-- The architectural state and the latches under it. -/
structure DataPath where
  arch : State
  latches : Latches
  deriving DecidableEq, Repr

/-- The value a selected port drives. -/
def State.portValue (s : State) : Port → Word
  | .reg r => s.readReg r
  | .pc => s.pc

/-- What an ALU input latch holds after `select_operands` with this register, or with the position open. -/
def DataPath.drive (d : DataPath) (p : Option Port) (old : Word) : Word :=
  match p with
  | some q => d.arch.portValue q
  | none => old

/-- R110 `select_operands(op1_reg, op2_reg, out_reg)`; a position the sequence leaves open, `none`, leaves
that latch as it was (log entry 17). -/
def selectOperands (op1 op2 out : Option Port) (d : DataPath) : Except Fault DataPath :=
  .ok { d with latches := { d.latches with
    op1 := op1.getD d.latches.op1
    op2 := op2.getD d.latches.op2
    out := out.getD d.latches.out
    left := d.drive op1 d.latches.left
    right := d.drive op2 d.latches.right } }

/-- R111 `latch_alu(const_value?)`: an immediate drives the right input; `op2_reg` stays selected. -/
def latchAlu (const : Option Word) (d : DataPath) : Except Fault DataPath :=
  match const with
  | some v => .ok { d with latches := { d.latches with right := v } }
  | none => .ok d

/-- R112 `execute_alu(operation)`: the result on the ALU bus, and `zero_flag`. After `NOP` both are
unspecified (R118): free values. -/
def executeAlu (op : AluOp) (d : DataPath) : Except Fault DataPath :=
  match alu op d.latches.left d.latches.right (Config.freeBus d.arch.freeCount) with
  | .error f => .error f
  | .ok v =>
    .ok { arch := if op = .nop then d.arch.freeFlag else d.arch.setZeroFlag (zeroOf v)
          latches := { d.latches with aluBus := v } }

/-- The value on the output bus: the ALU bus, unless another value was put on the path in this tick (R113). -/
def DataPath.outputBus (d : DataPath) : Word := d.latches.outPath.getD d.latches.aluBus

/-- R113 `latch_output()`: the output bus into the selected register, or into `pc`. -/
def latchOutput (d : DataPath) : Except Fault DataPath :=
  match d.latches.out with
  | .reg r => .ok { d with arch := d.arch.writeReg r d.outputBus }
  | .pc => .ok { d with arch := d.arch.setPc d.outputBus }

/-- R114 `read_memory()`. -/
def readMemory (d : DataPath) : Except Fault DataPath :=
  match memRead d.arch d.latches.aluBus with
  | .error f => .error f
  | .ok v => .ok { d with latches := { d.latches with outPath := some v } }

/-- R115 `write_memory()`: the data is the port selected as `op2_reg`, not the right ALU input. -/
def writeMemory (d : DataPath) : Except Fault DataPath :=
  match memWrite d.arch d.latches.aluBus (d.arch.portValue d.latches.op2) with
  | .error f => .error f
  | .ok s => .ok { d with arch := s }

/-- R116 `input_from_device(char)`. -/
def inputFromDevice (c : Word) (d : DataPath) : Except Fault DataPath :=
  .ok { d with latches := { d.latches with outPath := some c } }

/-- R117 `print_to_device()`. -/
def printToDevice (d : DataPath) : Except Fault DataPath :=
  .ok { d with arch := d.arch.emit d.latches.aluBus }

/-- A step of the control unit on its own fields (R121: "CU flag write only"). -/
def cuWrite (f : State → State) (d : DataPath) : Except Fault DataPath := .ok { d with arch := f d.arch }

/-- Signals one after another. -/
def runSignals : List (DataPath → Except Fault DataPath) → DataPath → Except Fault DataPath
  | [], d => .ok d
  | g :: gs, d =>
    match g d with
    | .error f => .error f
    | .ok d' => runSignals gs d'

/-- One line of R121's table, which is one tick: nothing is on the output bus path when it begins. -/
def microTick (gs : List (DataPath → Except Fault DataPath)) (d : DataPath) : Except Fault DataPath :=
  match runSignals gs { d with latches := { d.latches with outPath := none } } with
  | .error f => .error f
  | .ok d' => .ok { d' with arch := d'.arch.addTicks 1 }

/-- The `op2_reg` of "arg2 if register". -/
def Operand.port : Operand → Option Port
  | .reg r => some (.reg r)
  | .const _ => none

/-- The immediate of "arg2 if const". -/
def Operand.imm : Operand → Option Word
  | .reg _ => none
  | .const v => some v

/-- R106: the control unit's own incrementer. -/
def fetchIncrement : State → State := fun s => s.setPc (nextPc s.pc)

/-- R108: the cycle counted. -/
def countCycle (s : State) : State := { s with instrCounter := s.instrCounter + 1 }

/-- The row of `add sub mul div mod cmp`. -/
def microArith (op : AluOp) (out arg1 : Reg) (arg2 : Operand) : DataPath → Except Fault DataPath :=
  microTick [selectOperands (some (.reg arg1)) (Operand.port arg2) (some (.reg out)), latchAlu (Operand.imm arg2),
    executeAlu op, latchOutput, cuWrite fetchIncrement]

/-- The signals that load `pc` from `val`: the row of `jmp`, and the second tick of a taken branch. -/
def microJump (arg2 : Operand) : DataPath → Except Fault DataPath :=
  microTick [selectOperands none (Operand.port arg2) (some .pc), latchAlu (Operand.imm arg2), executeAlu .right,
    latchOutput]

/-- The rows of `je` and `jne`: the control unit samples `zero_flag` after the first tick. -/
def microBranch (takenOnZero : Bool) (arg1 : Reg) (arg2 : Operand) (d : DataPath) : Except Fault DataPath :=
  match microTick [selectOperands (some (.reg arg1)) none none, executeAlu .left] d with
  | .error f => .error f
  | .ok d' => if d'.arch.zeroFlag = takenOnZero then microJump arg2 d' else cuWrite fetchIncrement d'

/-- The rows of `sv`, by register and by constant address. -/
def microSv (arg1 : Reg) (arg2 : Operand) : DataPath → Except Fault DataPath :=
  match arg2 with
  | .reg r =>
    microTick [selectOperands (some (.reg r)) (some (.reg arg1)) none, executeAlu .left, writeMemory,
      cuWrite fetchIncrement]
  | .const v =>
    microTick [selectOperands none (some (.reg arg1)) none, latchAlu (some v), executeAlu .right, writeMemory,
      cuWrite fetchIncrement]

/-- The row of `in`: the control unit finds the latch full, or raises `IOError` (R160). -/
def microIn (out : Reg) (d : DataPath) : Except Fault DataPath :=
  match d.arch.inputLatch with
  | none => .error .ioError
  | some c =>
    microTick [selectOperands none none (some (.reg out)), inputFromDevice c, latchOutput,
      cuWrite fun s => s.setLatch none, cuWrite fetchIncrement] d

/-- The two ticks of `iret`. -/
def microIret (d : DataPath) : Except Fault DataPath :=
  match microTick [selectOperands (some (.reg .sp)) none (some .pc), executeAlu .left, readMemory, latchOutput] d with
  | .error f => .error f
  | .ok d' =>
    microTick [selectOperands (some (.reg .sp)) none (some (.reg .sp)), executeAlu .inc, latchOutput,
      cuWrite fun s => s.setInterrupts true false] d'

/-- R121: the signals of one instruction, its ticks and its pc update. -/
def microInstr (i : Instr) : DataPath → Except Fault DataPath :=
  match i with
  | .add o a v => microArith .add o a v
  | .sub o a v => microArith .sub o a v
  | .div o a v => microArith .div o a v
  | .mod o a v => microArith .mod o a v
  | .mul o a v => microArith .mul o a v
  | .cmp o a v => microArith .cmp o a v
  | .je a v => microBranch true a v
  | .jne a v => microBranch false a v
  | .jmp v => microJump v
  | .out v =>
    microTick [selectOperands none (Operand.port v) none, latchAlu (Operand.imm v), executeAlu .right, printToDevice,
      cuWrite fetchIncrement]
  | .in_ o => microIn o
  | .ld o v =>
    microTick [selectOperands none (Operand.port v) (some (.reg o)), latchAlu (Operand.imm v), executeAlu .right,
      readMemory, latchOutput, cuWrite fetchIncrement]
  | .sv a v => microSv a v
  | .iret => microIret
  | .sti => microTick [cuWrite fun s => s.setEnabled true, executeAlu .nop, cuWrite fetchIncrement]
  | .cli => microTick [cuWrite fun s => s.setEnabled false, executeAlu .nop, cuWrite fetchIncrement]
  | .halt => microTick [cuWrite State.setHalted, executeAlu .nop, cuWrite fetchIncrement]

/-- R121 followed by R108: a whole instruction at the level of signals. -/
def microExec (i : Instr) (d : DataPath) : Except Fault DataPath :=
  match microInstr i d with
  | .error f => .error f
  | .ok d' => cuWrite countCycle d'

/-- R121, the four ticks of the interrupt entry, preceded by the control unit's consume strobe (R202). -/
def microEntry (c : Word) (d : DataPath) : Except Fault DataPath :=
  runSignals [
    cuWrite fun s => s.setCursor (s.cursor + 1),
    microTick [selectOperands (some (.reg .sp)) none (some (.reg .sp)), executeAlu .dec, latchOutput],
    microTick [selectOperands (some (.reg .sp)) (some .pc) none, executeAlu .left, writeMemory],
    microTick [selectOperands none none (some .pc), latchAlu (some 0#32), executeAlu .right, readMemory, latchOutput],
    microTick [cuWrite fun s => (s.setInterrupts false true).setLatch (some c)]] d

end Sys2Proof.Machine
end

