-- ==== Sys2Proof/Safety.lean ====
section
/-! DEFINITION. The terms claims are stated in: what a cycle keeps and changes, which outcomes agree, the
invariant of every step, and a run with its end (spec 40_instruction_cycle.md R102, R122). -/

namespace Sys2Proof.Machine

/-! ### What a cycle keeps and changes -/

/-- Steps 4 and 5 of the cycle: the new `pc`, one more completed cycle, the cost in ticks. -/
def Completes (s t : State) (next : Word) (cost : Nat) : Prop :=
  t.pc = next ∧ t.instrCounter = s.instrCounter + 1 ∧ t.tick = s.tick + cost

/-- No general register changes. -/
def KeepsRegs (s t : State) : Prop := ∀ r, t.readReg r = s.readReg r

/-- Only register `o` changes, to `v`; where `o` is `r0` nothing is written and it still reads 0 (R21). -/
def WritesReg (s t : State) (o : Reg) (v : Word) : Prop :=
  t.readReg o = (if o = .r0 then 0#32 else v) ∧ ∀ r, r ≠ o → t.readReg r = s.readReg r

/-- Every cell of data memory reads as before, and its size is the same. -/
def KeepsCells (s t : State) : Prop := t.dmemSize = s.dmemSize ∧ ∀ a, t.readCell a = s.readCell a

/-- Every cell of data memory but cell `c` reads as before, and its size is the same. -/
def KeepsOtherCells (s t : State) (c : Nat) : Prop :=
  t.dmemSize = s.dmemSize ∧ ∀ a, a ≠ c → t.readCell a = s.readCell a

/-- The two interrupt flags and the halted latch are as before. -/
def KeepsModes (s t : State) : Prop :=
  t.interruptsEnabled = s.interruptsEnabled ∧ t.inInterrupt = s.inInterrupt ∧ t.halted = s.halted

/-- What the host fixed at load is as before, and the input cursor too. -/
def KeepsInputs (s t : State) : Prop :=
  t.imem = s.imem ∧ t.schedule = s.schedule ∧ t.tickBudget = s.tickBudget ∧ t.cursor = s.cursor

/-- The input latch and the output buffer are as before. -/
def KeepsPorts (s t : State) : Prop := t.inputLatch = s.inputLatch ∧ t.outputBuffer = s.outputBuffer

/-- The effect all six arithmetic instructions share (spec 41_arithmetic.md): `out` gets the value, the zero
flag says whether the value is zero, the cycle completes in 1 tick at the next instruction, and nothing
else changes. -/
def ArithmeticEffect (i : Instr) (out : Reg) (v : Word) (s : State) : Prop :=
  ∃ t, exec i s = .next t ∧ WritesReg s t out v ∧ t.zeroFlag = decide (v = 0#32) ∧
    Completes s t (s.pc + 1#32) 1 ∧ KeepsCells s t ∧ KeepsModes s t ∧ KeepsInputs s t ∧ KeepsPorts s t

/-- The effect a jump has (spec 42_control_transfer.md): the cycle completes at `next` with this cost and
nothing else changes but `zero_flag`, which is unspecified. -/
def JumpEffect (i : Instr) (next : Word) (cost : Nat) (s : State) : Prop :=
  ∃ t, exec i s = .next t ∧ Completes s t next cost ∧ KeepsRegs s t ∧ KeepsCells s t ∧ KeepsModes s t ∧
    KeepsInputs s t ∧ KeepsPorts s t

/-- The word of an instruction, field by field (R76): opcode, `out`, `arg1`, `T`, reserved zeros, `arg2`. -/
def HasWord (i : Instr) (op : BitVec 5) (out arg1 : BitVec 3) (t : BitVec 1) (arg2 : Word) : Prop :=
  encode i = op ++ out ++ arg1 ++ t ++ 0#4 ++ arg2

/-! ### Outcomes that agree -/

/-- Two outcomes that are the same up to what `erase` forgets of a next state. -/
def AgreeUpTo (erase : State → State) : Host.Outcome State Fault Refusal → Host.Outcome State Fault Refusal → Prop
  | .next s, .next t => erase s = erase t
  | .fault f, .fault g => f = g
  | .refused q, .refused r => q = r
  | _, _ => False

/-- Forget `zero_flag` and the model's count of free values. -/
def State.eraseFlag (s : State) : State := { s with zeroFlag := false, freeCount := 0 }

/-- Forget the input device: the schedule and the cursor. -/
def State.eraseDevice (s : State) : State := { s with schedule := [], cursor := 0 }

/-- Forget `in_interrupt`. -/
def State.eraseInHandler (s : State) : State := { s with inInterrupt := false }

/-- A run of signals against an outcome of the instruction level, up to what `erase` forgets. -/
def MicroAgrees (erase : State → State) : Except Fault DataPath → Host.Outcome State Fault Refusal → Prop
  | .ok d, .next t => erase d.arch = erase t
  | .error f, .fault g => f = g
  | _, _ => False

/-! ### The cycle's tables -/

/-- An interrupt entry happens in the cycle that starts in `s` (R192). -/
def State.entersHandler (s : State) : Bool := !s.inInterrupt && s.interruptsEnabled && s.request.isSome

/-- R107, the cost of an instruction executed in state `s`. -/
def tickCost (i : Instr) (s : State) : Nat :=
  match i with
  | .je a _ => if s.readReg a = 0#32 then 2 else 1
  | .jne a _ => if s.readReg a = 0#32 then 1 else 2
  | .iret => 2
  | .add _ _ _ | .sub _ _ _ | .div _ _ _ | .mod _ _ _ | .mul _ _ _ | .cmp _ _ _ => 1
  | .jmp _ | .out _ | .in_ _ | .ld _ _ | .sv _ _ | .sti | .cli | .halt => 1

/-- R106, the `pc` that an instruction executed in state `s` leaves. -/
def pcAfter (i : Instr) (s : State) : Word :=
  match i with
  | .je a v => if s.readReg a = 0#32 then s.val v else s.pc + 1#32
  | .jne a v => if s.readReg a = 0#32 then s.pc + 1#32 else s.val v
  | .jmp v => s.val v
  | .iret => s.readCell s.sp.toNat
  | .add _ _ _ | .sub _ _ _ | .div _ _ _ | .mod _ _ _ | .mul _ _ _ | .cmp _ _ _ => s.pc + 1#32
  | .out _ | .in_ _ | .ld _ _ | .sv _ _ | .sti | .cli | .halt => s.pc + 1#32

/-- R187, the faults an instruction can raise, and R181 to R183, when it does. -/
def raises (i : Instr) (s : State) : Option Fault :=
  match i with
  | .div _ _ v | .mod _ _ v => if s.val v = 0#32 then some .arithError else none
  | .ld _ v | .sv _ v =>
    if 0 ≤ (s.val v).toInt ∧ (s.val v).toInt < (s.dmemSize : Int) then none
    else some (.memoryError .data (s.val v).toInt)
  | .iret =>
    if 0 ≤ s.sp.toInt ∧ s.sp.toInt < (s.dmemSize : Int) then none else some (.memoryError .data s.sp.toInt)
  | .in_ _ => if s.inputLatch = none then some .ioError else none
  | .add _ _ _ | .sub _ _ _ | .mul _ _ _ | .cmp _ _ _ => none
  | .je _ _ | .jne _ _ | .jmp _ | .out _ | .sti | .cli | .halt => none

/-! ### The invariant of every step -/

/-- What every cycle keeps, and every loaded machine starts with. -/
structure Inv (s : State) : Prop where
  /-- the data memory is in its canonical form -/
  memoryCanonical : s.dmem.wf
  /-- every listed cell exists (R51, R54, R55) -/
  memoryInside : ∀ p ∈ s.dmem, p.1 < s.dmemSize
  /-- R5: `V <= DMEM_SIZE <= 2^31` -/
  memorySize : 1 ≤ s.dmemSize ∧ s.dmemSize ≤ Config.maxEntries
  /-- R5: `IMEM_SIZE <= 2^31` -/
  programSize : s.imem.length ≤ Config.maxEntries
  /-- R34: `0 <= cursor <= N` -/
  cursorInside : s.cursor ≤ s.schedule.length
  /-- R34, R190: the ticks of the schedule are non-decreasing -/
  scheduleSorted : s.schedule.Pairwise (fun e e' => e.tick ≤ e'.tick)
  /-- R34: the schedule holds codepoints -/
  scheduleChars : ∀ e ∈ s.schedule, e.char.toNat ≤ Config.maxCodepoint
  /-- R33: the latch holds a codepoint -/
  latchChar : ∀ c, s.inputLatch = some c → c.toNat ≤ Config.maxCodepoint
  /-- R107, R108: a completed cycle costs 1 to 6 ticks -/
  tickBounds : s.instrCounter ≤ s.tick ∧ s.tick ≤ 6 * s.instrCounter

/-- Every entry of instruction memory is a legal word (R79). -/
def ProgramLegal (s : State) : Prop := ∀ w ∈ s.imem, legalWord w = true

/-! ### Runs -/

/-- How a run stands after some cycles (R9, R122). -/
inductive RunEnd where
  /-- still running -/
  | running
  /-- a `halt` cycle completed -/
  | halted
  /-- a cycle raised this fault -/
  | faulted (f : Fault)
  /-- an instruction has no meaning (never, in this model) -/
  | refused (r : Refusal)
  deriving DecidableEq, Repr

/-- At most `k` cycles, and the state reported at the end: after a fault, the state at the start of the
faulting cycle (R186). -/
def runFor : Nat → State → State × RunEnd
  | 0, s => (s, if s.halted then .halted else .running)
  | k + 1, s =>
    if s.halted then (s, .halted)
    else
      match step s with
      | .next t => runFor k t
      | .fault f => (s, .faulted f)
      | .refused r => (s, .refused r)

end Sys2Proof.Machine
end

