-- ==== Sys2Proof/Certificates/Slice0/Obligations.lean ====
section
/-! DEFINITION. The statements for the provers. Each docstring cites the rule of spec/ it formalises; a log
entry is named where a statement rests on a choice of the model. -/

open Sys2Proof Sys2Proof.Machine

/-! ### The instruction word -/

/-- R79: on the words of well-formed instructions `decode` is the inverse of `encode`. -/
def Obligations.DecodeInvertsEncode : Prop :=
  ∀ i : Instr, i.wellFormed = true → decode (encode i) = .ok i

/-- R79: `encode(decode(w)) = w`, and what is decoded is well-formed: one word per instruction. -/
def Obligations.EncodeInvertsDecode : Prop :=
  ∀ (w : InstrWord) (i : Instr), decode w = .ok i → encode i = w ∧ i.wellFormed = true

/-- R79, R80: the decoder accepts exactly the legal words. A cycle whose budget and interrupt check pass and
that fetches an illegal word ends in `IllegalInstruction(pc, w)`, with the `pc` of the fetch. -/
def Obligations.IllegalWordsFault : Prop :=
  (∀ w : InstrWord, (∃ i, decode w = .ok i) ↔ legalWord w = true) ∧
  ∀ (s s1 : State) (w : InstrWord), s.halted = false → s.budgetExceeded = false →
    interruptCheck s = .ok s1 → fetch s1 = .ok w → legalWord w = false →
    step s = .fault (.illegalInstruction s1.pc w)

/-- R83 and 95_test_vectors.md section 2.7: words written out from the patterns decode to the instructions
they stand for, and the illegal ones to none. -/
def Obligations.WrittenOutWordsDecode : Prop :=
  decodeTableWord 48 0x012000000002 = some (.add .r1 .r1 (.reg .r2)) ∧
  decodeTableWord 48 0x385000000002 = some (.jne .r2 (.const 2#32)) ∧
  decodeTableWord 48 0x5D1000000003 = some (.ld .sp (.const 3#32)) ∧
  decodeTableWord 48 0x604000000005 = some (.sv .r2 (.reg .sp)) ∧
  decodeTableWord 48 0x510000000000 = some (.in_ .r1) ∧
  decodeTableWord 48 0x481000000041 = some (.out (.const 65#32)) ∧
  decodeTableWord 48 0x680000000000 = some .iret ∧
  decodeTableWord 48 0x000000000000 = none ∧
  decodeTableWord 48 0x01C000000000 = none ∧
  decodeTableWord 48 0x880000000000 = none ∧
  decodeTableWord 48 0x480100000000 = none ∧
  decodeTableWord 48 0x410000000001 = none

/-- R71, R72, R74: the record of a well-formed instruction is well-formed and reads back as it; a record
reads as an instruction exactly when it is well-formed, and then the instruction is well-formed, has the
record's opcode and has this record as its own. -/
def Obligations.RecordsAndInstructionsAgree : Prop :=
  (∀ i : Instr, i.wellFormed = true → i.toRecord.wellFormed = true ∧ i.toRecord.toInstr? = some i) ∧
  (∀ r : Record, r.wellFormed = true ↔ ∃ i, r.toInstr? = some i) ∧
  (∀ (r : Record) (i : Instr), r.toInstr? = some i →
    i.wellFormed = true ∧ i.opcode = r.opcode ∧ i.toRecord = r)

/-! ### Arithmetic

Each statement covers every register in the slot `out`. The rules put `out` in `wreg`; that the form with
`out = r0` discards the write, with `zero_flag` taken from the discarded result, is log entry 11. -/

/-- R130: `x[out] <- wrap32(l + r)`; the word of the sum. No fault. Format A, opcode 0.
Where `out` is `r0` the write is discarded and `zero_flag` is that of the discarded sum (log entry 11). -/
def Obligations.AddWritesWrappedSum : Prop :=
  ∀ (out arg1 : Reg) (arg2 : Operand) (s : State),
    ArithmeticEffect (.add out arg1 arg2) out (s.readReg arg1 + s.val arg2) s ∧
    HasWord (.add out arg1 arg2) 0#5 out.number arg1.number arg2.typeBit arg2.field

/-- R131: `x[out] <- wrap32(l - r)`. No fault. Format A, opcode 1.
Where `out` is `r0` the write is discarded and `zero_flag` is that of the discarded difference (log entry 11). -/
def Obligations.SubWritesWrappedDifference : Prop :=
  ∀ (out arg1 : Reg) (arg2 : Operand) (s : State),
    ArithmeticEffect (.sub out arg1 arg2) out (s.readReg arg1 - s.val arg2) s ∧
    HasWord (.sub out arg1 arg2) 1#5 out.number arg1.number arg2.typeBit arg2.field

/-- R132: `x[out] <- wrap32(l * r)`, the low 32 bits of the product. No fault. Format A, opcode 4.
Where `out` is `r0` the write is discarded and `zero_flag` is that of the discarded product (log entry 11). -/
def Obligations.MulWritesLowProduct : Prop :=
  ∀ (out arg1 : Reg) (arg2 : Operand) (s : State),
    ArithmeticEffect (.mul out arg1 arg2) out (s.readReg arg1 * s.val arg2) s ∧
    HasWord (.mul out arg1 arg2) 4#5 out.number arg1.number arg2.typeBit arg2.field

/-- R133: `ArithError` when the right operand is zero, whatever the left; else the signed quotient truncated
toward zero, wrapped. Format A, opcode 2. Where `out` is `r0` the write is discarded and `zero_flag` is that of
the discarded quotient (log entry 11). -/
def Obligations.DivWritesQuotientOrFaults : Prop :=
  ∀ (out arg1 : Reg) (arg2 : Operand) (s : State),
    (if s.val arg2 = 0#32 then exec (.div out arg1 arg2) s = .fault .arithError
     else ArithmeticEffect (.div out arg1 arg2) out ((s.readReg arg1).sdiv (s.val arg2)) s) ∧
    HasWord (.div out arg1 arg2) 2#5 out.number arg1.number arg2.typeBit arg2.field

/-- R134: `ArithError` when the right operand is zero; else the remainder of the truncated division, zero or
of the sign of the left operand. Format A, opcode 3. Where `out` is `r0` the write is discarded and `zero_flag`
is that of the discarded remainder (log entry 11). -/
def Obligations.ModWritesRemainderOrFaults : Prop :=
  ∀ (out arg1 : Reg) (arg2 : Operand) (s : State),
    (if s.val arg2 = 0#32 then exec (.mod out arg1 arg2) s = .fault .arithError
     else ArithmeticEffect (.mod out arg1 arg2) out ((s.readReg arg1).srem (s.val arg2)) s) ∧
    HasWord (.mod out arg1 arg2) 3#5 out.number arg1.number arg2.typeBit arg2.field

/-- R135: `cmp` writes the wrapped signed difference, zero exactly when the operands are equal; its sign is
that of the comparison whenever the difference does not overflow. No fault. Format A, opcode 5. Where `out` is
`r0` the write is discarded and `zero_flag` is that of the discarded difference (log entry 11). -/
def Obligations.CmpWritesDifference : Prop :=
  ∀ (out arg1 : Reg) (arg2 : Operand) (s : State),
    ArithmeticEffect (.cmp out arg1 arg2) out (s.readReg arg1 - s.val arg2) s ∧
    (s.readReg arg1 - s.val arg2 = 0#32 ↔ s.readReg arg1 = s.val arg2) ∧
    (-2 ^ 31 ≤ (s.readReg arg1).toInt - (s.val arg2).toInt →
      (s.readReg arg1).toInt - (s.val arg2).toInt < 2 ^ 31 →
      ((s.readReg arg1 - s.val arg2).toInt < 0 ↔ (s.readReg arg1).toInt < (s.val arg2).toInt)) ∧
    HasWord (.cmp out arg1 arg2) 5#5 out.number arg1.number arg2.typeBit arg2.field

/-- R118: each ALU operation puts the word of the table on the ALU bus, with `ArithError` for a zero
divisor; what the bus holds after `NOP` is the free value it is given. -/
def Obligations.AluFollowsItsTable : Prop :=
  ∀ l r n : Word,
    alu .add l r n = .ok (l + r) ∧ alu .sub l r n = .ok (l - r) ∧ alu .mul l r n = .ok (l * r) ∧
    alu .div l r n = (if r = 0#32 then .error .arithError else .ok (l.sdiv r)) ∧
    alu .mod l r n = (if r = 0#32 then .error .arithError else .ok (l.srem r)) ∧
    alu .cmp l r n = .ok (l - r) ∧ alu .inc l r n = .ok (l + 1#32) ∧ alu .dec l r n = .ok (l - 1#32) ∧
    alu .left l r n = .ok l ∧ alu .right l r n = .ok r ∧ alu .nop l r n = .ok n

/-- R119: for a nonzero divisor the quotient has the magnitude `floor(|a| / |b|)`, quotient and remainder
recompose the dividend, the remainder is smaller than the divisor in magnitude, and it is zero or has the
sign of the dividend. -/
def Obligations.DivisionTruncatesTowardZero : Prop :=
  ∀ a b : Int, b ≠ 0 →
    (tdiv a b).natAbs = a.natAbs / b.natAbs ∧ a = b * tdiv a b + tmod a b ∧
    (tmod a b).natAbs < b.natAbs ∧ (tmod a b = 0 ∨ (0 < tmod a b ↔ 0 < a)) ∧
    (tdiv a b = 0 ∨ (0 < tdiv a b ↔ 0 < a * b))

/-! ### Control transfer -/

/-- R140: taken when the register is zero, to `val` in 2 ticks; else the next instruction in 1 tick. -/
def Obligations.JeJumpsOnZero : Prop :=
  ∀ (arg1 : Reg) (arg2 : Operand) (s : State),
    (if s.readReg arg1 = 0#32 then JumpEffect (.je arg1 arg2) (s.val arg2) 2 s
     else JumpEffect (.je arg1 arg2) (s.pc + 1#32) 1 s) ∧
    HasWord (.je arg1 arg2) 6#5 0#3 arg1.number arg2.typeBit arg2.field

/-- R141: taken when the register is not zero, to `val` in 2 ticks; else the next instruction in 1 tick. -/
def Obligations.JneJumpsOnNonzero : Prop :=
  ∀ (arg1 : Reg) (arg2 : Operand) (s : State),
    (if s.readReg arg1 = 0#32 then JumpEffect (.jne arg1 arg2) (s.pc + 1#32) 1 s
     else JumpEffect (.jne arg1 arg2) (s.val arg2) 2 s) ∧
    HasWord (.jne arg1 arg2) 7#5 0#3 arg1.number arg2.typeBit arg2.field

/-- R142: to `val` in 1 tick. -/
def Obligations.JmpJumps : Prop :=
  ∀ (arg2 : Operand) (s : State),
    JumpEffect (.jmp arg2) (s.val arg2) 1 s ∧
    HasWord (.jmp arg2) 8#5 0#3 0#3 arg2.typeBit arg2.field

/-! ### Load and store -/

/-- R150: at an address in `[0, DMEM_SIZE)` the cell goes to `out`; elsewhere `MemoryError(data, EA)`.
Where `out` is `r0` the cell is read, with the same fault, and discarded (log entry 11). -/
def Obligations.LdLoadsCellOrFaults : Prop :=
  ∀ (out : Reg) (arg2 : Operand) (s : State),
    (if 0 ≤ (s.val arg2).toInt ∧ (s.val arg2).toInt < s.dmemSize then
      ∃ t, exec (.ld out arg2) s = .next t ∧ WritesReg s t out (s.readCell (s.val arg2).toNat) ∧
        Completes s t (s.pc + 1#32) 1 ∧ KeepsCells s t ∧ KeepsModes s t ∧ KeepsInputs s t ∧ KeepsPorts s t
     else exec (.ld out arg2) s = .fault (.memoryError .data (s.val arg2).toInt)) ∧
    HasWord (.ld out arg2) 11#5 out.number 0#3 arg2.typeBit arg2.field

/-- R151: at an address in `[0, DMEM_SIZE)` the cell becomes the register, read back from a canonical
memory, and no other cell and no register changes; elsewhere `MemoryError(data, EA)`. -/
def Obligations.SvStoresRegisterOrFaults : Prop :=
  ∀ (arg1 : Reg) (arg2 : Operand) (s : State), s.dmem.wf →
    (if 0 ≤ (s.val arg2).toInt ∧ (s.val arg2).toInt < s.dmemSize then
      ∃ t, exec (.sv arg1 arg2) s = .next t ∧ t.readCell (s.val arg2).toNat = s.readReg arg1 ∧
        KeepsOtherCells s t (s.val arg2).toNat ∧ Completes s t (s.pc + 1#32) 1 ∧ KeepsRegs s t ∧
        KeepsModes s t ∧ KeepsInputs s t ∧ KeepsPorts s t
     else exec (.sv arg1 arg2) s = .fault (.memoryError .data (s.val arg2).toInt)) ∧
    HasWord (.sv arg1 arg2) 12#5 0#3 arg1.number arg2.typeBit arg2.field

/-! ### Port I/O -/

/-- R160: with a full latch the codepoint goes to `out` and the latch is empty; with an empty one, `IOError`.
Where `out` is `r0` the codepoint is discarded and the latch emptied (log entry 11). -/
def Obligations.InTakesLatchOrFaults : Prop :=
  ∀ (out : Reg) (s : State),
    (∀ c, s.inputLatch = some c →
      ∃ t, exec (.in_ out) s = .next t ∧ WritesReg s t out c ∧ t.inputLatch = none ∧
        Completes s t (s.pc + 1#32) 1 ∧ KeepsCells s t ∧ KeepsModes s t ∧ KeepsInputs s t ∧
        t.outputBuffer = s.outputBuffer) ∧
    (s.inputLatch = none → exec (.in_ out) s = .fault .ioError) ∧
    HasWord (.in_ out) 10#5 out.number 0#3 0#1 0#32

/-- R161: the low 21 bits of the operand are appended to the output buffer. No fault. -/
def Obligations.OutAppendsLowBits : Prop :=
  ∀ (arg2 : Operand) (s : State),
    (∃ t, exec (.out arg2) s = .next t ∧ t.outputBuffer = s.outputBuffer ++ [(s.val arg2).setWidth 21] ∧
      Completes s t (s.pc + 1#32) 1 ∧ KeepsRegs s t ∧ KeepsCells s t ∧ KeepsModes s t ∧ KeepsInputs s t ∧
      t.inputLatch = s.inputLatch) ∧
    HasWord (.out arg2) 9#5 0#3 0#3 arg2.typeBit arg2.field

/-! ### System -/

/-- R170: `pc` becomes the cell at `sp`, `sp` is incremented, `in_interrupt` is cleared and
`interrupts_enabled` set, in 2 ticks, whether or not a handler was running; a bad `sp` faults. -/
def Obligations.IretPopsPcOrFaults : Prop :=
  ∀ s : State,
    (if 0 ≤ s.sp.toInt ∧ s.sp.toInt < s.dmemSize then
      ∃ t, exec .iret s = .next t ∧ Completes s t (s.readCell s.sp.toNat) 2 ∧
        WritesReg s t .sp (s.sp + 1#32) ∧ t.inInterrupt = false ∧ t.interruptsEnabled = true ∧
        t.halted = s.halted ∧ KeepsCells s t ∧ KeepsInputs s t ∧ KeepsPorts s t
     else exec .iret s = .fault (.memoryError .data s.sp.toInt)) ∧
    HasWord .iret 13#5 0#3 0#3 0#1 0#32

/-- R171, R172: `sti` sets and `cli` clears `interrupts_enabled`, in 1 tick, and nothing else changes. -/
def Obligations.StiAndCliWriteTheEnable : Prop :=
  ∀ s : State,
    (∃ t, exec .sti s = .next t ∧ t.interruptsEnabled = true ∧ t.inInterrupt = s.inInterrupt ∧
      t.halted = s.halted ∧ Completes s t (s.pc + 1#32) 1 ∧ KeepsRegs s t ∧ KeepsCells s t ∧
      KeepsInputs s t ∧ KeepsPorts s t) ∧
    (∃ t, exec .cli s = .next t ∧ t.interruptsEnabled = false ∧ t.inInterrupt = s.inInterrupt ∧
      t.halted = s.halted ∧ Completes s t (s.pc + 1#32) 1 ∧ KeepsRegs s t ∧ KeepsCells s t ∧
      KeepsInputs s t ∧ KeepsPorts s t) ∧
    HasWord .sti 14#5 0#3 0#3 0#1 0#32 ∧ HasWord .cli 15#5 0#3 0#3 0#1 0#32

/-- R173: `halt` is a full cycle that sets `halted`. That a step from a halted state answers that state is
the model's reading of "no further cycle starts" (log entry 10). -/
def Obligations.HaltCompletesAndStays : Prop :=
  (∀ s : State, ∃ t, exec .halt s = .next t ∧ t.halted = true ∧
    t.interruptsEnabled = s.interruptsEnabled ∧ t.inInterrupt = s.inInterrupt ∧
    Completes s t (s.pc + 1#32) 1 ∧ KeepsRegs s t ∧ KeepsCells s t ∧ KeepsInputs s t ∧ KeepsPorts s t) ∧
  (∀ s : State, s.halted = true → step s = .next s) ∧
  HasWord .halt 16#5 0#3 0#3 0#1 0#32

/-! ### Registers and memories -/

/-- R21, R22: `r0` reads 0 in every state and a write to it changes nothing; a write to another register
reads back, and leaves every other register, `pc`, the memories and the rest of the state as they were. -/
def Obligations.RegisterFileReadsBackWrites : Prop :=
  ∀ (s : State) (v : Word),
    s.readReg .r0 = 0#32 ∧ s.writeReg .r0 v = s ∧
    ∀ r : Reg, r ≠ .r0 → WritesReg s (s.writeReg r v) r v ∧
      ∃ x1 x2 x3 x4 x5 : Word,
        s.writeReg r v = { s with r1 := x1, r2 := x2, r3 := x3, r4 := x4, sp := x5 }

/-- R51: an address is valid exactly when its signed value is in `[0, DMEM_SIZE)`; since `DMEM_SIZE <= 2^31`
the unsigned reading rejects the same words. -/
def Obligations.SignedAndUnsignedAddressesAgree : Prop :=
  ∀ (s : State) (a : Word),
    (s.validAddr a = true ↔ 0 ≤ a.toInt ∧ a.toInt < s.dmemSize) ∧
    (s.dmemSize ≤ 2 ^ 31 → (s.validAddr a = true ↔ a.toNat < s.dmemSize))

/-- R54, R55: `MemRead` and `MemWrite` fault outside `[0, DMEM_SIZE)` and nowhere else; inside, a read
answers the cell, and a write makes the cell the word, changes no other cell and no other state, and keeps
the memory canonical. -/
def Obligations.MemoryReadsBackWrites : Prop :=
  ∀ (s : State) (a v : Word), s.dmem.wf →
    if 0 ≤ a.toInt ∧ a.toInt < s.dmemSize then
      memRead s a = .ok (s.readCell a.toNat) ∧
      ∃ t, memWrite s a v = .ok t ∧ t.readCell a.toNat = v ∧ t.dmem.wf ∧
        (∀ b, b ≠ a.toNat → t.readCell b = s.readCell b) ∧ ∃ m, t = { s with dmem := m }
    else
      memRead s a = .error (.memoryError .data a.toInt) ∧
      memWrite s a v = .error (.memoryError .data a.toInt)

/-- R57: with `pc` in `[0, IMEM_SIZE)` the entry is fetched; elsewhere `MemoryError(instr, pc)`. -/
def Obligations.FetchReadsProgramOrFaults : Prop :=
  ∀ s : State,
    (∀ k : Nat, s.pc.toInt = k → ∀ h : k < s.imem.length, fetch s = .ok s.imem[k]) ∧
    (s.pc.toInt < 0 ∨ s.imem.length ≤ s.pc.toInt → fetch s = .error (.memoryError .instr s.pc.toInt))

/-! ### The interrupt -/

/-- R195: the interrupt entry. The entry is consumed, `pc` is pushed at the decremented `sp`, `pc` is loaded
from cell 0 after the push, `in_interrupt` is set and `interrupts_enabled` cleared, the latch is filled and
4 ticks pass; nothing else changes but `zero_flag`, which is unspecified. A decremented `sp` outside data
memory faults. -/
def Obligations.InterruptEntryPushesAndVectors : Prop :=
  ∀ (c : Word) (s : State), s.dmem.wf →
    if 0 ≤ (s.sp - 1#32).toInt ∧ (s.sp - 1#32).toInt < s.dmemSize then
      ∃ t, interruptEntry c s = .ok t ∧
        t.cursor = s.cursor + 1 ∧ WritesReg s t .sp (s.sp - 1#32) ∧
        t.readCell (s.sp - 1#32).toNat = s.pc ∧ KeepsOtherCells s t (s.sp - 1#32).toNat ∧
        t.pc = (if (s.sp - 1#32).toNat = 0 then s.pc else s.readCell 0) ∧
        t.inInterrupt = true ∧ t.interruptsEnabled = false ∧ t.inputLatch = some c ∧
        t.tick = s.tick + 4 ∧ t.instrCounter = s.instrCounter ∧ t.halted = s.halted ∧
        t.outputBuffer = s.outputBuffer ∧ t.imem = s.imem ∧ t.schedule = s.schedule ∧
        t.tickBudget = s.tickBudget
    else interruptEntry c s = .error (.memoryError .data (s.sp - 1#32).toInt)

/-- R192 to R194: inside a handler exactly the due entries are dropped, up to the first that is not due, and
nothing else changes; outside one, a due entry is taken when interrupts are enabled, and held when they
are not; with nothing due nothing happens. -/
def Obligations.InterruptCheckDropsTakesOrHolds : Prop :=
  ∀ s : State,
    (s.inInterrupt = true →
      ∃ k, interruptCheck s = .ok { s with cursor := s.cursor + k } ∧
        (∀ j, j < k → ∃ e, s.schedule[s.cursor + j]? = some e ∧ e.tick ≤ s.tick) ∧
        (∀ e, s.schedule[s.cursor + k]? = some e → s.tick < e.tick)) ∧
    (s.inInterrupt = false → s.interruptsEnabled = true → ∀ e, s.schedule[s.cursor]? = some e →
      e.tick ≤ s.tick → interruptCheck s = interruptEntry e.char s) ∧
    (s.inInterrupt = false →
      (s.interruptsEnabled = false ∨ ∀ e, s.schedule[s.cursor]? = some e → s.tick < e.tick) →
      interruptCheck s = .ok s)

/-- R198: a handler that leaves `sp` and the saved cell as it found them returns, by `iret`, to the `pc` of
the interrupted program with its `sp`, outside a handler and with interrupts enabled. -/
def Obligations.IretRestoresInterruptedPc : Prop :=
  ∀ (c : Word) (s t u : State), s.dmem.wf → interruptEntry c s = .ok t →
    u.sp = t.sp → u.dmemSize = t.dmemSize → u.readCell t.sp.toNat = t.readCell t.sp.toNat →
    ∃ v, exec .iret u = .next v ∧ v.pc = s.pc ∧ v.sp = s.sp ∧ v.inInterrupt = false ∧
      v.interruptsEnabled = true

/-- R29, R199: while `in_interrupt` is true, only a cycle whose instruction is `iret` clears it. -/
def Obligations.OnlyIretLeavesHandler : Prop :=
  ∀ s t : State, s.inInterrupt = true → step s = .next t →
    t.inInterrupt = true ∨ ∃ s1, beginCycle s = .ok (.iret, s1)

/-- R28: `interrupts_enabled` goes from false to true only in a cycle whose instruction is `sti` or `iret`. -/
def Obligations.OnlyStiAndIretEnable : Prop :=
  ∀ s t : State, s.interruptsEnabled = false → step s = .next t → t.interruptsEnabled = true →
    ∃ s1, beginCycle s = .ok (.sti, s1) ∨ beginCycle s = .ok (.iret, s1)

/-- R29, R192: `in_interrupt` goes from false to true only in a cycle that starts with interrupts enabled and
the entry at the cursor due, and that consumes that one entry. -/
def Obligations.HandlerEnteredOnlyWhenEnabledAndDue : Prop :=
  ∀ s t : State, s.inInterrupt = false → step s = .next t → t.inInterrupt = true →
    s.interruptsEnabled = true ∧ (∃ e, s.schedule[s.cursor]? = some e ∧ e.tick ≤ s.tick) ∧
    t.cursor = s.cursor + 1

/-- R32, R173: `halted` goes from false to true only in a cycle whose instruction is `halt`. -/
def Obligations.OnlyHaltHalts : Prop :=
  ∀ s t : State, s.halted = false → step s = .next t →
    (t.halted = true ↔ ∃ s1, beginCycle s = .ok (.halt, s1))

/-! ### The cycle -/

/-- R101, R103: when the machine is not halted, its budget is not exceeded, the interrupt check answers `s1`,
and the word fetched at the `pc` of `s1` decodes to `i`, then the step is `exec i` at `s1`; and `s1` is the
state itself when no interrupt is due. -/
def Obligations.StepRunsDecodedInstruction : Prop :=
  ∀ (s s1 : State) (w : InstrWord) (i : Instr),
    s.halted = false → s.budgetExceeded = false → interruptCheck s = .ok s1 →
    fetch s1 = .ok w → decode w = .ok i →
    step s = exec i s1 ∧ (s.request = none → s.inInterrupt = false → s1 = s)

/-- R200: the first event of the cycle that faults ends it, in the order budget test, push of the interrupt
entry, fetch, instruction; and no cycle raises `BudgetError` when the budget is unset (R185). -/
def Obligations.FaultsComeInCycleOrder : Prop :=
  ∀ s : State, s.halted = false →
    (∀ b, s.tickBudget = some b → b < s.tick → step s = .fault .budgetError) ∧
    (s.tickBudget = none → step s ≠ .fault .budgetError) ∧
    (s.budgetExceeded = false → ∀ f, interruptCheck s = .error f → step s = .fault f) ∧
    (s.budgetExceeded = false → ∀ s1, interruptCheck s = .ok s1 →
      (s1.pc.toInt < 0 ∨ s1.imem.length ≤ s1.pc.toInt) →
      step s = .fault (.memoryError .instr s1.pc.toInt))

/-- R107, R108: an instruction adds its cost of the table to `tick`, an interrupt entry 4 more, so a cycle
adds 1, 2, 5 or 6 (R107, R195); and every completed cycle counts once (R108). It covers the ill-formed
instructions with `out = r0` too (log entry 11). -/
def Obligations.TicksFollowTheTable : Prop :=
  (∀ (i : Instr) (s t : State), exec i s = .next t →
    t.tick = s.tick + tickCost i s ∧ t.instrCounter = s.instrCounter + 1) ∧
  (∀ s s1 : State, interruptCheck s = .ok s1 →
    s1.tick = s.tick + (if s.entersHandler then 4 else 0) ∧ s1.instrCounter = s.instrCounter) ∧
  (∀ s t : State, s.halted = false → step s = .next t →
    t.instrCounter = s.instrCounter + 1 ∧
    (t.tick = s.tick + 1 ∨ t.tick = s.tick + 2 ∨ t.tick = s.tick + 5 ∨ t.tick = s.tick + 6))

/-- R106: an instruction leaves the `pc` of the table; besides that, only the interrupt entry writes `pc`. It
covers the ill-formed instructions with `out = r0` too (log entry 11). -/
def Obligations.PcFollowsTheTable : Prop :=
  (∀ (i : Instr) (s t : State), exec i s = .next t → t.pc = pcAfter i s) ∧
  (∀ s s1 : State, interruptCheck s = .ok s1 → s.entersHandler = false → s1.pc = s.pc)

/-- R187: which fault each instruction raises, and when; every instruction that raises none completes, so no
instruction and no cycle is ever refused. It covers the ill-formed instructions with `out = r0` too (log entry 11). -/
def Obligations.InstructionsFaultExactlyAsListed : Prop :=
  (∀ (i : Instr) (s : State),
    match raises i s with
    | some f => exec i s = .fault f
    | none => ∃ t, exec i s = .next t) ∧
  (∀ (s : State) (r : Refusal), step s ≠ .refused r)

/-! ### Invariants and whole-machine rules -/

/-- Every cycle keeps `Inv`: the canonical memory inside `[0, DMEM_SIZE)` (R36, R54, R55), the sizes (R5), the
cursor inside the sorted schedule (R34, R190), codepoints in the latch (R33), and the bounds of the tick
counter (R107, R108). -/
def Obligations.StepKeepsTheInvariant : Prop :=
  ∀ s t : State, Inv s → step s = .next t → Inv t

/-- `Inv` holds of `State.reset`. -/
def Obligations.ResetMeetsTheInvariant : Prop := Inv State.reset

/-- `Inv` holds of the reset state of every load that is not refused. -/
def Obligations.LoadMeetsTheInvariant : Prop :=
  ∀ (a : Artifact) (h : Setup) (s : State), load a h = .ok s → Inv s

/-- R64, R190, R210: no cycle changes instruction memory, the input schedule, `DMEM_SIZE` or the budget. -/
def Obligations.LoadedInputsNeverChange : Prop :=
  ∀ s t : State, step s = .next t →
    t.imem = s.imem ∧ t.schedule = s.schedule ∧ t.dmemSize = s.dmemSize ∧ t.tickBudget = s.tickBudget

/-- R34, R35, R30, R210: the output buffer only grows, at its end, and only by `out`; the cursor and the two
counters never go back. -/
def Obligations.OutputAndCountersOnlyGrow : Prop :=
  ∀ s t : State, step s = .next t →
    s.outputBuffer <+: t.outputBuffer ∧ s.cursor ≤ t.cursor ∧ s.tick ≤ t.tick ∧
    s.instrCounter ≤ t.instrCounter ∧
    (t.outputBuffer ≠ s.outputBuffer → ∃ v s1, beginCycle s = .ok (.out v, s1))

/-- R26: nothing reads `zero_flag` across cycles: two states that differ in it alone step to the same fault,
or to states that again differ in it alone. It holds for every value of the model's free values. -/
def Obligations.ZeroFlagIsNeverRead : Prop :=
  ∀ s t : State, s.eraseFlag = t.eraseFlag → AgreeUpTo State.eraseFlag (step s) (step t)

/-- R193: while `in_interrupt` is true, what the input schedule and cursor hold changes nothing in a cycle
but the cursor: additional scheduled interrupts do not change machine state. -/
def Obligations.InputInsideHandlerChangesNothing : Prop :=
  ∀ (s : State) (sched : List InputEntry) (k : Nat), s.inInterrupt = true →
    AgreeUpTo State.eraseDevice (step s) (step { s with schedule := sched, cursor := k })

/-- R205: there is one mode: every instruction has the same effect whether `in_interrupt` is true or false,
and keeps `in_interrupt` unless it is `iret`. It covers the ill-formed instructions with `out = r0` too
(log entry 11). -/
def Obligations.InstructionsIgnoreInInterrupt : Prop :=
  (∀ (i : Instr) (s : State) (b : Bool),
    AgreeUpTo State.eraseInHandler (exec i s) (exec i { s with inInterrupt := b })) ∧
  (∀ (i : Instr) (s t : State), exec i s = .next t → t.inInterrupt = s.inInterrupt ∨ i = .iret)

/-! ### Reset and load -/

/-- R40, row by row, in `State.reset`, but for the rows R40 leaves unspecified. Which `DMEM_SIZE` and which
artifact its rows speak of is the model's choice: log entry 6, and the empty load of log entry 15, whose data
array is one zero and whose code array is empty. -/
def Obligations.ResetHoldsStatedValues : Prop :=
  State.reset.readReg .r0 = 0#32 ∧ State.reset.pc = 0#32 ∧ State.reset.tick = 0 ∧
  State.reset.instrCounter = 0 ∧ State.reset.interruptsEnabled = false ∧
  State.reset.inInterrupt = false ∧ State.reset.halted = false ∧ State.reset.inputLatch = none ∧
  State.reset.cursor = 0 ∧ State.reset.outputBuffer = [] ∧
  (State.reset.sp.toNat : Int) = State.reset.dmemSize - 1 ∧
  (∀ k, State.reset.readCell k = 0#32) ∧ State.reset.imem = []

/-- R40, R41, R52, R221: the reset state of a load: the stated values, `sp = DMEM_SIZE - 1`, the data array and
zeros in data memory, instruction memory entry by entry the records of the code array, the host's schedule entry
by entry and its budget, and the values the load was given for what reset leaves unspecified. -/
def Obligations.LoadGivesTheResetState : Prop :=
  ∀ (a : Artifact) (h : Setup) (s : State), load a h = .ok s →
    s.pc = 0#32 ∧ s.tick = 0 ∧ s.instrCounter = 0 ∧ s.interruptsEnabled = false ∧
    s.inInterrupt = false ∧ s.halted = false ∧ s.inputLatch = none ∧ s.cursor = 0 ∧ s.outputBuffer = [] ∧
    s.dmemSize = h.dmemSize ∧ s.sp.toNat = h.dmemSize - 1 ∧
    (∀ k, s.readCell k = a.data.getD k 0#32) ∧
    s.schedule = toSchedule h.schedule ∧ s.schedule.length = h.schedule.length ∧
    (∀ (k : Nat) (t : Int) (c : Nat), h.schedule[k]? = some (t, c) →
      ∃ e, s.schedule[k]? = some e ∧ (e.tick : Int) = t ∧ e.char.toNat = c) ∧
    s.tickBudget = h.tickBudget ∧ s.readReg .r1 = h.r1 ∧ s.readReg .r2 = h.r2 ∧ s.readReg .r3 = h.r3 ∧
    s.readReg .r4 = h.r4 ∧ s.zeroFlag = h.zeroFlag ∧
    s.imem.length = a.code.length ∧
    (∀ (k : Nat) (r : Record), a.code[k]? = some r →
      ∃ w i, s.imem[k]? = some w ∧ decode w = .ok i ∧ r.toInstr? = some i)

/-- R52, R74, R190, R5: a load is not refused exactly when every record is well-formed, the sizes are in
bounds, and the schedule is non-decreasing with no negative tick. The bound on its characters is the
model's (log entry 13). -/
def Obligations.LoadRefusesExactlyBadInputs : Prop :=
  ∀ (a : Artifact) (h : Setup),
    (∃ s, load a h = .ok s) ↔
      (∀ r ∈ a.code, r.wellFormed = true) ∧ a.code.length ≤ 2 ^ 31 ∧ 1 ≤ a.data.length ∧
      a.data.length ≤ h.dmemSize ∧ h.dmemSize ≤ 2 ^ 31 ∧
      (∀ e ∈ h.schedule, 0 ≤ e.1 ∧ e.2 ≤ 0x10FFFF) ∧
      h.schedule.Pairwise (fun e e' => e.1 ≤ e'.1)

/-- R184: at the record level `IllegalInstruction` is unreachable: no run of a loaded artifact, of any
length, ends with it; and every cycle keeps a program of legal words legal. -/
def Obligations.LoadedProgramsNeverMeetIllegalWords : Prop :=
  (∀ s t : State, ProgramLegal s → step s = .next t → ProgramLegal t) ∧
  ∀ (a : Artifact) (h : Setup) (s : State), load a h = .ok s →
    ∀ (k : Nat) (pc : Word) (w : InstrWord), (runFor k s).2 ≠ .faulted (.illegalInstruction pc w)

/-! ### The DataPath -/

/-- R121: from any value of the latches, the micro-operation sequence of every instruction raises the fault
of the instruction rule, or ends in the architectural state of the instruction rule, ticks included, up to
`zero_flag`; for the arithmetic instructions `zero_flag` agrees too. It rests on the model's reading of the
positions R121 leaves open and of how long a value stays on the output bus path, one tick (log entry 17): the
second tick of `iret` latches the ALU bus. The ill-formed instructions with `out = r0` are log entry 11. -/
def Obligations.MicroSequencesRefineInstructions : Prop :=
  (∀ (i : Instr) (d : DataPath), MicroAgrees State.eraseFlag (microExec i d) (exec i d.arch)) ∧
  (∀ (i : Instr) (d : DataPath),
    i.opcode = .add ∨ i.opcode = .sub ∨ i.opcode = .mul ∨ i.opcode = .div ∨ i.opcode = .mod ∨ i.opcode = .cmp →
    MicroAgrees id (microExec i d) (exec i d.arch))

/-- R121, R195: from any value of the latches, the four-tick sequence of the interrupt entry raises the fault
of the entry, or ends in its architectural state up to `zero_flag`. It rests on the reading of R121 of log
entry 17. -/
def Obligations.MicroSequenceRefinesInterruptEntry : Prop :=
  ∀ (c : Word) (d : DataPath),
    match microEntry c d, interruptEntry c d.arch with
    | .ok d', .ok t => d'.arch.eraseFlag = t.eraseFlag
    | .error f, .error g => f = g
    | _, _ => False

/-- R111, R115: the word `write_memory` stores is the register selected as `op2_reg`, whatever immediate
`latch_alu` put on the right input after the selection. That the left input, `op1_reg` and `out_reg`, which the
selection leaves open, stay as they were is the model's reading (log entry 17). -/
def Obligations.WriteMemoryIgnoresTheImmediate : Prop :=
  ∀ (r : Reg) (v : Word) (d : DataPath),
    runSignals [selectOperands none (some (.reg r)) none, latchAlu (some v), executeAlu .right, writeMemory] d =
      match memWrite (d.arch.setZeroFlag (zeroOf v)) v (d.arch.readReg r) with
      | .error f => .error f
      | .ok s => .ok ⟨s, { d.latches with op2 := .reg r, left := d.latches.left, right := v, aluBus := v }⟩
end

