-- ==== Sys2Proof/Laws/Encoding.lean ====
section
/-! SUPPORT. Reading back each field of a packed word, and each number of R77 and R78. -/

namespace Sys2Proof

variable (op : Opcode) (o a : BitVec 3) (t : BitVec 1) (v : Word)

@[simp] theorem fieldOpcode_packWord : fieldOpcode (packWord op o a t v) = op.number := by
  apply BitVec.eq_of_getLsbD_eq
  intro i hi
  simp only [fieldOpcode, packWord, BitVec.getLsbD_extractLsb', BitVec.getLsbD_append]
  interval_cases i <;> simp

@[simp] theorem fieldOut_packWord : fieldOut (packWord op o a t v) = o := by
  apply BitVec.eq_of_getLsbD_eq
  intro i hi
  simp only [fieldOut, packWord, BitVec.getLsbD_extractLsb', BitVec.getLsbD_append]
  interval_cases i <;> simp

@[simp] theorem fieldArg1_packWord : fieldArg1 (packWord op o a t v) = a := by
  apply BitVec.eq_of_getLsbD_eq
  intro i hi
  simp only [fieldArg1, packWord, BitVec.getLsbD_extractLsb', BitVec.getLsbD_append]
  interval_cases i <;> simp

@[simp] theorem fieldT_packWord : fieldT (packWord op o a t v) = t := by
  apply BitVec.eq_of_getLsbD_eq
  intro i hi
  simp only [fieldT, packWord, BitVec.getLsbD_extractLsb', BitVec.getLsbD_append]
  interval_cases i; simp

@[simp] theorem fieldReserved_packWord : fieldReserved (packWord op o a t v) = 0#4 := by
  apply BitVec.eq_of_getLsbD_eq
  intro i hi
  simp only [fieldReserved, packWord, BitVec.getLsbD_extractLsb', BitVec.getLsbD_append]
  interval_cases i <;> simp

@[simp] theorem fieldArg2_packWord : fieldArg2 (packWord op o a t v) = v := by
  apply BitVec.eq_of_getLsbD_eq
  intro i hi
  simp only [fieldArg2, packWord, BitVec.getLsbD_extractLsb', BitVec.getLsbD_append]
  simp [hi]

@[simp] theorem opcodeOfNumber_number : opcodeOfNumber op.number = some op := by
  cases op <;> rfl

@[simp] theorem regOfNumber_number (r : Reg) : regOfNumber r.number = some r := by
  cases r <;> rfl

/-- A number that names a register is that register's number (R78). -/
theorem number_of_regOfNumber {n : BitVec 3} {r : Reg} (h : regOfNumber n = some r) : r.number = n := by
  revert h
  revert n
  cases r <;> decide

/-- A number that names an opcode is that opcode's number (R77). -/
theorem number_of_opcodeOfNumber {n : BitVec 5} {p : Opcode} (h : opcodeOfNumber n = some p) : p.number = n := by
  revert h
  revert n
  cases p <;> decide

/-! ### What the decoder of each slot and each format can answer -/

theorem decodeOut_ok {w : InstrWord} {r : Reg} (h : decodeOut w = .ok r) :
    r.number = fieldOut w ∧ r.writable = true := by
  unfold decodeOut at h
  split at h
  · next q hq =>
    split at h
    · next hw =>
      obtain rfl : q = r := by simpa using h
      exact ⟨number_of_regOfNumber hq, hw⟩
    · simp at h
  · simp at h

theorem decodeArg1_ok {w : InstrWord} {r : Reg} (h : decodeArg1 w = .ok r) : r.number = fieldArg1 w := by
  unfold decodeArg1 at h
  split at h
  · next q hq =>
    obtain rfl : q = r := by simpa using h
    exact number_of_regOfNumber hq
  · simp at h

/-- A word of zeros above bit 2 is its three low bits under zeros. -/
theorem zero_append_low (v : Word) (h : v.extractLsb' 3 29 = 0#29) : 0#29 ++ v.extractLsb' 0 3 = v := by
  apply BitVec.eq_of_getLsbD_eq
  intro i hi
  rw [BitVec.getLsbD_append]
  by_cases h3 : i < 3
  · simp [h3]
  · have hz := congrArg (fun x => x.getLsbD (i - 3)) h
    have he : 3 + (i - 3) = i := by omega
    have hl : i - 3 < 29 := by omega
    simp only [BitVec.getLsbD_extractLsb', he, hl, decide_true, Bool.true_and] at hz
    simpa [h3] using hz.symm

theorem decodeArg2_ok {w : InstrWord} {x : Operand} (h : decodeArg2 w = .ok x) :
    x.typeBit = fieldT w ∧ x.field = fieldArg2 w := by
  unfold decodeArg2 at h
  split at h
  · next ht =>
    obtain rfl : Operand.const (fieldArg2 w) = x := by simpa using h
    exact ⟨ht.symm, rfl⟩
  · next ht =>
    have h0 : fieldT w = 0#1 := by
      revert ht
      generalize fieldT w = q
      revert q
      decide
    split at h
    · next h29 =>
      split at h
      · next q hq =>
        obtain rfl : Operand.reg q = x := by simpa using h
        exact ⟨h0.symm, by rw [Operand.field, number_of_regOfNumber hq, zero_append_low _ h29]⟩
      · simp at h
    · simp at h

theorem decodeA_ok {w : InstrWord} {mk : Reg → Reg → Operand → Instr} {i : Instr} (h : decodeA w mk = .ok i) :
    ∃ o a v, i = mk o a v ∧ decodeOut w = .ok o ∧ decodeArg1 w = .ok a ∧ decodeArg2 w = .ok v := by
  unfold decodeA at h
  split at h
  · simp at h
  · next o ho =>
    split at h
    · simp at h
    · next a ha =>
      split at h
      · simp at h
      · next v hv => exact ⟨o, a, v, by simpa using h.symm, ho, ha, hv⟩

theorem decodeB_ok {w : InstrWord} {mk : Reg → Operand → Instr} {i : Instr} (h : decodeB w mk = .ok i) :
    ∃ a v, i = mk a v ∧ decodeArg1 w = .ok a ∧ decodeArg2 w = .ok v := by
  unfold decodeB at h
  split at h
  · simp at h
  · next a ha =>
    split at h
    · simp at h
    · next v hv => exact ⟨a, v, by simpa using h.symm, ha, hv⟩

theorem decodeJ_ok {w : InstrWord} {mk : Operand → Instr} {i : Instr} (h : decodeJ w mk = .ok i) :
    ∃ v, i = mk v ∧ decodeArg2 w = .ok v := by
  unfold decodeJ at h
  split at h
  · simp at h
  · next v hv => exact ⟨v, by simpa using h.symm, hv⟩

theorem decodeL_ok {w : InstrWord} {mk : Reg → Operand → Instr} {i : Instr} (h : decodeL w mk = .ok i) :
    ∃ o v, i = mk o v ∧ decodeOut w = .ok o ∧ decodeArg2 w = .ok v := by
  unfold decodeL at h
  split at h
  · simp at h
  · next o ho =>
    split at h
    · simp at h
    · next v hv => exact ⟨o, v, by simpa using h.symm, ho, hv⟩

theorem decodeI_ok {w : InstrWord} {mk : Reg → Instr} {i : Instr} (h : decodeI w mk = .ok i) :
    ∃ o, i = mk o ∧ decodeOut w = .ok o := by
  unfold decodeI at h
  split at h
  · simp at h
  · next o ho => exact ⟨o, by simpa using h.symm, ho⟩

/-- What is decoded: the opcode's slots of a word with no reserved and no unused bit set (R79). -/
theorem decode_ok {w : InstrWord} {i : Instr} (h : decode w = .ok i) :
    ∃ p : Opcode, p.number = fieldOpcode w ∧ fieldReserved w = 0#4 ∧
      unusedFieldsZero p.format w = true ∧ decodeSlots p w = .ok i := by
  unfold decode at h
  split at h
  · simp at h
  · next p hp =>
    split at h
    · next hr =>
      split at h
      · next hu => exact ⟨p, number_of_opcodeOfNumber hp, hr, hu, h⟩
      · simp at h
    · simp at h

/-- A word is its own fields packed, if its reserved bits are zero (R76). -/
theorem eq_packWord {w : InstrWord} {p : Opcode} (hp : p.number = fieldOpcode w) (hr : fieldReserved w = 0#4) :
    w = packWord p (fieldOut w) (fieldArg1 w) (fieldT w) (fieldArg2 w) := by
  have hz : ∀ k, k < 4 → w.getLsbD (32 + k) = false := by
    intro k hk
    simpa [fieldReserved, hk] using congrArg (fun x => x.getLsbD k) hr
  have h0 := hz 0 (by decide)
  have h1 := hz 1 (by decide)
  have h2 := hz 2 (by decide)
  have h3 := hz 3 (by decide)
  apply BitVec.eq_of_getLsbD_eq
  intro i hi
  simp only [packWord, BitVec.getLsbD_append, hp, fieldOpcode, fieldOut, fieldArg1, fieldT, fieldArg2,
    BitVec.getLsbD_extractLsb']
  interval_cases i <;> simp_all

end Sys2Proof
end

