-- ==== Sys2Proof/Laws/Memory.lean ====
section
/-! SUPPORT. Data memory as a list of cells: what a read answers after a write, and that every operation
keeps the canonical form. -/

namespace Sys2Proof.Machine

/-- Every listed address of `m` is at least `b`. -/
def Memory.from (b : Nat) (m : Memory) : Prop := ∀ p ∈ m, b ≤ p.1

theorem Memory.read_eq_zero_of_lt {m : Memory} {a b : Nat} (h : Memory.from b m) (hab : a < b) :
    Memory.read m a = 0#32 := by
  induction m with
  | nil => rfl
  | cons p m ih =>
    have hp : b ≤ p.1 := h p (by simp)
    have hne : a ≠ p.1 := by omega
    simp only [Memory.read, hne, if_false]
    exact ih fun q hq => h q (by simp [hq])

/-- The tail of a canonical memory is canonical and lies above its head. -/
theorem Memory.wf_cons {p : Nat × Word} {m : Memory} :
    Memory.wf (p :: m) ↔ Memory.from (p.1 + 1) m ∧ p.2 ≠ 0#32 ∧ Memory.wf m := by
  simp only [Memory.wf, Memory.from, List.pairwise_cons, List.mem_cons, forall_eq_or_imp, Nat.succ_le_iff]
  tauto

/-- A write leaves every other cell as it was. -/
theorem Memory.read_write_of_ne (m : Memory) (a b : Nat) (v : Word) (h : b ≠ a) :
    Memory.read (Memory.write m a v) b = Memory.read m b := by
  induction m with
  | nil => by_cases hv : v = 0#32 <;> simp [Memory.write, Memory.read, hv, h]
  | cons p m ih =>
    by_cases h1 : a < p.1
    · by_cases hv : v = 0#32 <;> simp [Memory.write, Memory.read, hv, h1, h]
    · by_cases h2 : a = p.1
      · have hb : b ≠ p.1 := by omega
        by_cases hv : v = 0#32 <;> simp [Memory.write, Memory.read, hv, h2, hb]
      · by_cases hb : b = p.1 <;> simp [Memory.write, Memory.read, h1, h2, hb, ih]

/-- A read after a write of the same cell answers the word written. -/
theorem Memory.read_write_self {m : Memory} (hm : Memory.wf m) (a : Nat) (v : Word) :
    Memory.read (Memory.write m a v) a = v := by
  induction m with
  | nil => by_cases hv : v = 0#32 <;> simp [Memory.write, Memory.read, hv]
  | cons p m ih =>
    obtain ⟨hfrom, -, hwf⟩ := Memory.wf_cons.mp hm
    by_cases h1 : a < p.1
    · have hne : a ≠ p.1 := by omega
      by_cases hv : v = 0#32
      · have hz := Memory.read_eq_zero_of_lt hfrom (show a < p.1 + 1 by omega)
        simp [Memory.write, Memory.read, hv, h1, hne, hz]
      · simp [Memory.write, Memory.read, hv, h1]
    · by_cases h2 : a = p.1
      · by_cases hv : v = 0#32
        · have hz := Memory.read_eq_zero_of_lt hfrom (show a < p.1 + 1 by omega)
          simpa [Memory.write, hv, h2] using h2 ▸ hz
        · simp [Memory.write, Memory.read, hv, h2]
      · simp [Memory.write, Memory.read, h1, h2, ih hwf]

/-- The cells listed after a write: those listed before, and the written one. -/
theorem Memory.mem_write {m : Memory} {a : Nat} {v : Word} {p : Nat × Word} (h : p ∈ Memory.write m a v) :
    p ∈ m ∨ (p = (a, v) ∧ v ≠ 0#32) := by
  induction m with
  | nil => by_cases hv : v = 0#32 <;> simp_all [Memory.write]
  | cons q m ih =>
    by_cases h1 : a < q.1
    · by_cases hv : v = 0#32 <;> simp_all [Memory.write]
      tauto
    · by_cases h2 : a = q.1
      · by_cases hv : v = 0#32 <;> simp_all [Memory.write]
        tauto
      · simp only [Memory.write, h1, h2, if_false, List.mem_cons] at h
        rcases h with h | h
        · simp [h]
        · rcases ih h with h | h
          · simp [h]
          · exact .inr h

/-- A write keeps the canonical form. -/
theorem Memory.write_wf {m : Memory} (hm : Memory.wf m) (a : Nat) (v : Word) : Memory.wf (Memory.write m a v) := by
  induction m with
  | nil => by_cases hv : v = 0#32 <;> simp [Memory.write, hv, Memory.wf]
  | cons p m ih =>
    obtain ⟨hfrom, hne, hwf⟩ := Memory.wf_cons.mp hm
    by_cases h1 : a < p.1
    · by_cases hv : v = 0#32
      · simpa [Memory.write, hv, h1] using hm
      · simp only [Memory.write, h1, hv, if_true, if_false]
        refine Memory.wf_cons.mpr ⟨?_, hv, hm⟩
        intro q hq
        rcases List.mem_cons.mp hq with rfl | hq
        · exact h1
        · have := hfrom q hq
          show a + 1 ≤ q.1
          omega
    · by_cases h2 : a = p.1
      · by_cases hv : v = 0#32
        · simpa [Memory.write, hv, h2] using hwf
        · subst h2
          simp only [Memory.write, Nat.lt_irrefl, hv, if_true, if_false]
          exact Memory.wf_cons.mpr ⟨hfrom, hv, hwf⟩
      · simp only [Memory.write, h1, h2, if_false]
        refine Memory.wf_cons.mpr ⟨?_, hne, ih hwf⟩
        intro q hq
        rcases Memory.mem_write hq with hq | ⟨rfl, -⟩
        · exact hfrom q hq
        · show p.1 + 1 ≤ a
          omega

/-- The cells of a loaded memory lie from `start` to the end of the data. -/
theorem Memory.mem_ofData {data : List Word} {start : Nat} {p : Nat × Word}
    (h : p ∈ Memory.ofData start data) : start ≤ p.1 ∧ p.1 < start + data.length := by
  induction data generalizing start with
  | nil => simp [Memory.ofData] at h
  | cons v vs ih =>
    by_cases hv : v = 0#32
    · simp only [Memory.ofData, hv, if_true] at h
      have := ih h
      simp only [List.length_cons]
      omega
    · simp only [Memory.ofData, hv, if_false, List.mem_cons] at h
      simp only [List.length_cons]
      rcases h with rfl | h
      · simp
      · have := ih h
        omega

/-- Loading builds the canonical form. -/
theorem Memory.ofData_wf (start : Nat) (data : List Word) : Memory.wf (Memory.ofData start data) := by
  induction data generalizing start with
  | nil => simp [Memory.ofData, Memory.wf]
  | cons v vs ih =>
    by_cases hv : v = 0#32
    · simpa [Memory.ofData, hv] using ih (start + 1)
    · simp only [Memory.ofData, hv, if_false]
      exact Memory.wf_cons.mpr ⟨fun q hq => (Memory.mem_ofData hq).1, hv, ih (start + 1)⟩

/-- A loaded memory reads as the data array, and 0 elsewhere. -/
theorem Memory.read_ofData (data : List Word) (start k : Nat) :
    Memory.read (Memory.ofData start data) k = if start ≤ k then data.getD (k - start) 0#32 else 0#32 := by
  induction data generalizing start with
  | nil => simp [Memory.ofData, Memory.read]
  | cons v vs ih =>
    rcases Nat.lt_trichotomy k start with h | h | h
    · have h1 : ¬ start ≤ k := by omega
      have h2 : ¬ start + 1 ≤ k := by omega
      have h3 : k ≠ start := by omega
      by_cases hv : v = 0#32 <;> simp [Memory.ofData, Memory.read, hv, ih, h1, h2, h3]
    · subst h
      by_cases hv : v = 0#32 <;> simp [Memory.ofData, Memory.read, hv, ih]
    · have h1 : start ≤ k := by omega
      have h2 : start + 1 ≤ k := by omega
      have h3 : k ≠ start := by omega
      obtain ⟨d, rfl⟩ : ∃ d, k = start + 1 + d := ⟨k - (start + 1), by omega⟩
      have h4 : start + 1 + d - start = d + 1 := by omega
      have h5 : start + 1 + d - (start + 1) = d := by omega
      by_cases hv : v = 0#32 <;> simp [Memory.ofData, Memory.read, hv, ih, h1, h2, h3, h4, h5]

end Sys2Proof.Machine
end

