-- ==== Sys2Proof/Laws/State.lean ====
section
/-! SUPPORT. One lemma for each field after each update of the state, so that no later proof unfolds a
record update; and what the register file reads after each update. -/

namespace Sys2Proof.Machine

variable (s : State)

/-! ### setZeroFlag -/

@[simp] theorem State.setZeroFlag_r1 (b : Bool) : (s.setZeroFlag b).r1 = s.r1 := rfl
@[simp] theorem State.setZeroFlag_r2 (b : Bool) : (s.setZeroFlag b).r2 = s.r2 := rfl
@[simp] theorem State.setZeroFlag_r3 (b : Bool) : (s.setZeroFlag b).r3 = s.r3 := rfl
@[simp] theorem State.setZeroFlag_r4 (b : Bool) : (s.setZeroFlag b).r4 = s.r4 := rfl
@[simp] theorem State.setZeroFlag_sp (b : Bool) : (s.setZeroFlag b).sp = s.sp := rfl
@[simp] theorem State.setZeroFlag_pc (b : Bool) : (s.setZeroFlag b).pc = s.pc := rfl
@[simp] theorem State.setZeroFlag_zeroFlag (b : Bool) : (s.setZeroFlag b).zeroFlag = b := rfl
@[simp] theorem State.setZeroFlag_tick (b : Bool) : (s.setZeroFlag b).tick = s.tick := rfl
@[simp] theorem State.setZeroFlag_instrCounter (b : Bool) : (s.setZeroFlag b).instrCounter = s.instrCounter := rfl
@[simp] theorem State.setZeroFlag_interruptsEnabled (b : Bool) : (s.setZeroFlag b).interruptsEnabled = s.interruptsEnabled := rfl
@[simp] theorem State.setZeroFlag_inInterrupt (b : Bool) : (s.setZeroFlag b).inInterrupt = s.inInterrupt := rfl
@[simp] theorem State.setZeroFlag_halted (b : Bool) : (s.setZeroFlag b).halted = s.halted := rfl
@[simp] theorem State.setZeroFlag_inputLatch (b : Bool) : (s.setZeroFlag b).inputLatch = s.inputLatch := rfl
@[simp] theorem State.setZeroFlag_schedule (b : Bool) : (s.setZeroFlag b).schedule = s.schedule := rfl
@[simp] theorem State.setZeroFlag_cursor (b : Bool) : (s.setZeroFlag b).cursor = s.cursor := rfl
@[simp] theorem State.setZeroFlag_outputBuffer (b : Bool) : (s.setZeroFlag b).outputBuffer = s.outputBuffer := rfl
@[simp] theorem State.setZeroFlag_dmemSize (b : Bool) : (s.setZeroFlag b).dmemSize = s.dmemSize := rfl
@[simp] theorem State.setZeroFlag_dmem (b : Bool) : (s.setZeroFlag b).dmem = s.dmem := rfl
@[simp] theorem State.setZeroFlag_imem (b : Bool) : (s.setZeroFlag b).imem = s.imem := rfl
@[simp] theorem State.setZeroFlag_tickBudget (b : Bool) : (s.setZeroFlag b).tickBudget = s.tickBudget := rfl
@[simp] theorem State.setZeroFlag_freeCount (b : Bool) : (s.setZeroFlag b).freeCount = s.freeCount := rfl
@[simp] theorem State.readReg_setZeroFlag (b : Bool) (q : Reg) : (s.setZeroFlag b).readReg q = s.readReg q := by
  cases q <;> rfl
@[simp] theorem State.readCell_setZeroFlag (b : Bool) (cell : Nat) : (s.setZeroFlag b).readCell cell = s.readCell cell := rfl

/-! ### freeFlag -/

@[simp] theorem State.freeFlag_r1 : (s.freeFlag).r1 = s.r1 := rfl
@[simp] theorem State.freeFlag_r2 : (s.freeFlag).r2 = s.r2 := rfl
@[simp] theorem State.freeFlag_r3 : (s.freeFlag).r3 = s.r3 := rfl
@[simp] theorem State.freeFlag_r4 : (s.freeFlag).r4 = s.r4 := rfl
@[simp] theorem State.freeFlag_sp : (s.freeFlag).sp = s.sp := rfl
@[simp] theorem State.freeFlag_pc : (s.freeFlag).pc = s.pc := rfl
@[simp] theorem State.freeFlag_zeroFlag : (s.freeFlag).zeroFlag = Config.freeZeroFlag s.freeCount := rfl
@[simp] theorem State.freeFlag_tick : (s.freeFlag).tick = s.tick := rfl
@[simp] theorem State.freeFlag_instrCounter : (s.freeFlag).instrCounter = s.instrCounter := rfl
@[simp] theorem State.freeFlag_interruptsEnabled : (s.freeFlag).interruptsEnabled = s.interruptsEnabled := rfl
@[simp] theorem State.freeFlag_inInterrupt : (s.freeFlag).inInterrupt = s.inInterrupt := rfl
@[simp] theorem State.freeFlag_halted : (s.freeFlag).halted = s.halted := rfl
@[simp] theorem State.freeFlag_inputLatch : (s.freeFlag).inputLatch = s.inputLatch := rfl
@[simp] theorem State.freeFlag_schedule : (s.freeFlag).schedule = s.schedule := rfl
@[simp] theorem State.freeFlag_cursor : (s.freeFlag).cursor = s.cursor := rfl
@[simp] theorem State.freeFlag_outputBuffer : (s.freeFlag).outputBuffer = s.outputBuffer := rfl
@[simp] theorem State.freeFlag_dmemSize : (s.freeFlag).dmemSize = s.dmemSize := rfl
@[simp] theorem State.freeFlag_dmem : (s.freeFlag).dmem = s.dmem := rfl
@[simp] theorem State.freeFlag_imem : (s.freeFlag).imem = s.imem := rfl
@[simp] theorem State.freeFlag_tickBudget : (s.freeFlag).tickBudget = s.tickBudget := rfl
@[simp] theorem State.freeFlag_freeCount : (s.freeFlag).freeCount = s.freeCount + 1 := rfl
@[simp] theorem State.readReg_freeFlag (q : Reg) : (s.freeFlag).readReg q = s.readReg q := by
  cases q <;> rfl
@[simp] theorem State.readCell_freeFlag (cell : Nat) : (s.freeFlag).readCell cell = s.readCell cell := rfl

/-! ### setPc -/

@[simp] theorem State.setPc_r1 (v : Word) : (s.setPc v).r1 = s.r1 := rfl
@[simp] theorem State.setPc_r2 (v : Word) : (s.setPc v).r2 = s.r2 := rfl
@[simp] theorem State.setPc_r3 (v : Word) : (s.setPc v).r3 = s.r3 := rfl
@[simp] theorem State.setPc_r4 (v : Word) : (s.setPc v).r4 = s.r4 := rfl
@[simp] theorem State.setPc_sp (v : Word) : (s.setPc v).sp = s.sp := rfl
@[simp] theorem State.setPc_pc (v : Word) : (s.setPc v).pc = v := rfl
@[simp] theorem State.setPc_zeroFlag (v : Word) : (s.setPc v).zeroFlag = s.zeroFlag := rfl
@[simp] theorem State.setPc_tick (v : Word) : (s.setPc v).tick = s.tick := rfl
@[simp] theorem State.setPc_instrCounter (v : Word) : (s.setPc v).instrCounter = s.instrCounter := rfl
@[simp] theorem State.setPc_interruptsEnabled (v : Word) : (s.setPc v).interruptsEnabled = s.interruptsEnabled := rfl
@[simp] theorem State.setPc_inInterrupt (v : Word) : (s.setPc v).inInterrupt = s.inInterrupt := rfl
@[simp] theorem State.setPc_halted (v : Word) : (s.setPc v).halted = s.halted := rfl
@[simp] theorem State.setPc_inputLatch (v : Word) : (s.setPc v).inputLatch = s.inputLatch := rfl
@[simp] theorem State.setPc_schedule (v : Word) : (s.setPc v).schedule = s.schedule := rfl
@[simp] theorem State.setPc_cursor (v : Word) : (s.setPc v).cursor = s.cursor := rfl
@[simp] theorem State.setPc_outputBuffer (v : Word) : (s.setPc v).outputBuffer = s.outputBuffer := rfl
@[simp] theorem State.setPc_dmemSize (v : Word) : (s.setPc v).dmemSize = s.dmemSize := rfl
@[simp] theorem State.setPc_dmem (v : Word) : (s.setPc v).dmem = s.dmem := rfl
@[simp] theorem State.setPc_imem (v : Word) : (s.setPc v).imem = s.imem := rfl
@[simp] theorem State.setPc_tickBudget (v : Word) : (s.setPc v).tickBudget = s.tickBudget := rfl
@[simp] theorem State.setPc_freeCount (v : Word) : (s.setPc v).freeCount = s.freeCount := rfl
@[simp] theorem State.readReg_setPc (v : Word) (q : Reg) : (s.setPc v).readReg q = s.readReg q := by
  cases q <;> rfl
@[simp] theorem State.readCell_setPc (v : Word) (cell : Nat) : (s.setPc v).readCell cell = s.readCell cell := rfl

/-! ### setInterrupts -/

@[simp] theorem State.setInterrupts_r1 (e h : Bool) : (s.setInterrupts e h).r1 = s.r1 := rfl
@[simp] theorem State.setInterrupts_r2 (e h : Bool) : (s.setInterrupts e h).r2 = s.r2 := rfl
@[simp] theorem State.setInterrupts_r3 (e h : Bool) : (s.setInterrupts e h).r3 = s.r3 := rfl
@[simp] theorem State.setInterrupts_r4 (e h : Bool) : (s.setInterrupts e h).r4 = s.r4 := rfl
@[simp] theorem State.setInterrupts_sp (e h : Bool) : (s.setInterrupts e h).sp = s.sp := rfl
@[simp] theorem State.setInterrupts_pc (e h : Bool) : (s.setInterrupts e h).pc = s.pc := rfl
@[simp] theorem State.setInterrupts_zeroFlag (e h : Bool) : (s.setInterrupts e h).zeroFlag = s.zeroFlag := rfl
@[simp] theorem State.setInterrupts_tick (e h : Bool) : (s.setInterrupts e h).tick = s.tick := rfl
@[simp] theorem State.setInterrupts_instrCounter (e h : Bool) : (s.setInterrupts e h).instrCounter = s.instrCounter := rfl
@[simp] theorem State.setInterrupts_interruptsEnabled (e h : Bool) : (s.setInterrupts e h).interruptsEnabled = e := rfl
@[simp] theorem State.setInterrupts_inInterrupt (e h : Bool) : (s.setInterrupts e h).inInterrupt = h := rfl
@[simp] theorem State.setInterrupts_halted (e h : Bool) : (s.setInterrupts e h).halted = s.halted := rfl
@[simp] theorem State.setInterrupts_inputLatch (e h : Bool) : (s.setInterrupts e h).inputLatch = s.inputLatch := rfl
@[simp] theorem State.setInterrupts_schedule (e h : Bool) : (s.setInterrupts e h).schedule = s.schedule := rfl
@[simp] theorem State.setInterrupts_cursor (e h : Bool) : (s.setInterrupts e h).cursor = s.cursor := rfl
@[simp] theorem State.setInterrupts_outputBuffer (e h : Bool) : (s.setInterrupts e h).outputBuffer = s.outputBuffer := rfl
@[simp] theorem State.setInterrupts_dmemSize (e h : Bool) : (s.setInterrupts e h).dmemSize = s.dmemSize := rfl
@[simp] theorem State.setInterrupts_dmem (e h : Bool) : (s.setInterrupts e h).dmem = s.dmem := rfl
@[simp] theorem State.setInterrupts_imem (e h : Bool) : (s.setInterrupts e h).imem = s.imem := rfl
@[simp] theorem State.setInterrupts_tickBudget (e h : Bool) : (s.setInterrupts e h).tickBudget = s.tickBudget := rfl
@[simp] theorem State.setInterrupts_freeCount (e h : Bool) : (s.setInterrupts e h).freeCount = s.freeCount := rfl
@[simp] theorem State.readReg_setInterrupts (e h : Bool) (q : Reg) : (s.setInterrupts e h).readReg q = s.readReg q := by
  cases q <;> rfl
@[simp] theorem State.readCell_setInterrupts (e h : Bool) (cell : Nat) : (s.setInterrupts e h).readCell cell = s.readCell cell := rfl

/-! ### setEnabled -/

@[simp] theorem State.setEnabled_r1 (e : Bool) : (s.setEnabled e).r1 = s.r1 := rfl
@[simp] theorem State.setEnabled_r2 (e : Bool) : (s.setEnabled e).r2 = s.r2 := rfl
@[simp] theorem State.setEnabled_r3 (e : Bool) : (s.setEnabled e).r3 = s.r3 := rfl
@[simp] theorem State.setEnabled_r4 (e : Bool) : (s.setEnabled e).r4 = s.r4 := rfl
@[simp] theorem State.setEnabled_sp (e : Bool) : (s.setEnabled e).sp = s.sp := rfl
@[simp] theorem State.setEnabled_pc (e : Bool) : (s.setEnabled e).pc = s.pc := rfl
@[simp] theorem State.setEnabled_zeroFlag (e : Bool) : (s.setEnabled e).zeroFlag = s.zeroFlag := rfl
@[simp] theorem State.setEnabled_tick (e : Bool) : (s.setEnabled e).tick = s.tick := rfl
@[simp] theorem State.setEnabled_instrCounter (e : Bool) : (s.setEnabled e).instrCounter = s.instrCounter := rfl
@[simp] theorem State.setEnabled_interruptsEnabled (e : Bool) : (s.setEnabled e).interruptsEnabled = e := rfl
@[simp] theorem State.setEnabled_inInterrupt (e : Bool) : (s.setEnabled e).inInterrupt = s.inInterrupt := rfl
@[simp] theorem State.setEnabled_halted (e : Bool) : (s.setEnabled e).halted = s.halted := rfl
@[simp] theorem State.setEnabled_inputLatch (e : Bool) : (s.setEnabled e).inputLatch = s.inputLatch := rfl
@[simp] theorem State.setEnabled_schedule (e : Bool) : (s.setEnabled e).schedule = s.schedule := rfl
@[simp] theorem State.setEnabled_cursor (e : Bool) : (s.setEnabled e).cursor = s.cursor := rfl
@[simp] theorem State.setEnabled_outputBuffer (e : Bool) : (s.setEnabled e).outputBuffer = s.outputBuffer := rfl
@[simp] theorem State.setEnabled_dmemSize (e : Bool) : (s.setEnabled e).dmemSize = s.dmemSize := rfl
@[simp] theorem State.setEnabled_dmem (e : Bool) : (s.setEnabled e).dmem = s.dmem := rfl
@[simp] theorem State.setEnabled_imem (e : Bool) : (s.setEnabled e).imem = s.imem := rfl
@[simp] theorem State.setEnabled_tickBudget (e : Bool) : (s.setEnabled e).tickBudget = s.tickBudget := rfl
@[simp] theorem State.setEnabled_freeCount (e : Bool) : (s.setEnabled e).freeCount = s.freeCount := rfl
@[simp] theorem State.readReg_setEnabled (e : Bool) (q : Reg) : (s.setEnabled e).readReg q = s.readReg q := by
  cases q <;> rfl
@[simp] theorem State.readCell_setEnabled (e : Bool) (cell : Nat) : (s.setEnabled e).readCell cell = s.readCell cell := rfl

/-! ### setHalted -/

@[simp] theorem State.setHalted_r1 : (s.setHalted).r1 = s.r1 := rfl
@[simp] theorem State.setHalted_r2 : (s.setHalted).r2 = s.r2 := rfl
@[simp] theorem State.setHalted_r3 : (s.setHalted).r3 = s.r3 := rfl
@[simp] theorem State.setHalted_r4 : (s.setHalted).r4 = s.r4 := rfl
@[simp] theorem State.setHalted_sp : (s.setHalted).sp = s.sp := rfl
@[simp] theorem State.setHalted_pc : (s.setHalted).pc = s.pc := rfl
@[simp] theorem State.setHalted_zeroFlag : (s.setHalted).zeroFlag = s.zeroFlag := rfl
@[simp] theorem State.setHalted_tick : (s.setHalted).tick = s.tick := rfl
@[simp] theorem State.setHalted_instrCounter : (s.setHalted).instrCounter = s.instrCounter := rfl
@[simp] theorem State.setHalted_interruptsEnabled : (s.setHalted).interruptsEnabled = s.interruptsEnabled := rfl
@[simp] theorem State.setHalted_inInterrupt : (s.setHalted).inInterrupt = s.inInterrupt := rfl
@[simp] theorem State.setHalted_halted : (s.setHalted).halted = true := rfl
@[simp] theorem State.setHalted_inputLatch : (s.setHalted).inputLatch = s.inputLatch := rfl
@[simp] theorem State.setHalted_schedule : (s.setHalted).schedule = s.schedule := rfl
@[simp] theorem State.setHalted_cursor : (s.setHalted).cursor = s.cursor := rfl
@[simp] theorem State.setHalted_outputBuffer : (s.setHalted).outputBuffer = s.outputBuffer := rfl
@[simp] theorem State.setHalted_dmemSize : (s.setHalted).dmemSize = s.dmemSize := rfl
@[simp] theorem State.setHalted_dmem : (s.setHalted).dmem = s.dmem := rfl
@[simp] theorem State.setHalted_imem : (s.setHalted).imem = s.imem := rfl
@[simp] theorem State.setHalted_tickBudget : (s.setHalted).tickBudget = s.tickBudget := rfl
@[simp] theorem State.setHalted_freeCount : (s.setHalted).freeCount = s.freeCount := rfl
@[simp] theorem State.readReg_setHalted (q : Reg) : (s.setHalted).readReg q = s.readReg q := by
  cases q <;> rfl
@[simp] theorem State.readCell_setHalted (cell : Nat) : (s.setHalted).readCell cell = s.readCell cell := rfl

/-! ### setLatch -/

@[simp] theorem State.setLatch_r1 (c : Option Word) : (s.setLatch c).r1 = s.r1 := rfl
@[simp] theorem State.setLatch_r2 (c : Option Word) : (s.setLatch c).r2 = s.r2 := rfl
@[simp] theorem State.setLatch_r3 (c : Option Word) : (s.setLatch c).r3 = s.r3 := rfl
@[simp] theorem State.setLatch_r4 (c : Option Word) : (s.setLatch c).r4 = s.r4 := rfl
@[simp] theorem State.setLatch_sp (c : Option Word) : (s.setLatch c).sp = s.sp := rfl
@[simp] theorem State.setLatch_pc (c : Option Word) : (s.setLatch c).pc = s.pc := rfl
@[simp] theorem State.setLatch_zeroFlag (c : Option Word) : (s.setLatch c).zeroFlag = s.zeroFlag := rfl
@[simp] theorem State.setLatch_tick (c : Option Word) : (s.setLatch c).tick = s.tick := rfl
@[simp] theorem State.setLatch_instrCounter (c : Option Word) : (s.setLatch c).instrCounter = s.instrCounter := rfl
@[simp] theorem State.setLatch_interruptsEnabled (c : Option Word) : (s.setLatch c).interruptsEnabled = s.interruptsEnabled := rfl
@[simp] theorem State.setLatch_inInterrupt (c : Option Word) : (s.setLatch c).inInterrupt = s.inInterrupt := rfl
@[simp] theorem State.setLatch_halted (c : Option Word) : (s.setLatch c).halted = s.halted := rfl
@[simp] theorem State.setLatch_inputLatch (c : Option Word) : (s.setLatch c).inputLatch = c := rfl
@[simp] theorem State.setLatch_schedule (c : Option Word) : (s.setLatch c).schedule = s.schedule := rfl
@[simp] theorem State.setLatch_cursor (c : Option Word) : (s.setLatch c).cursor = s.cursor := rfl
@[simp] theorem State.setLatch_outputBuffer (c : Option Word) : (s.setLatch c).outputBuffer = s.outputBuffer := rfl
@[simp] theorem State.setLatch_dmemSize (c : Option Word) : (s.setLatch c).dmemSize = s.dmemSize := rfl
@[simp] theorem State.setLatch_dmem (c : Option Word) : (s.setLatch c).dmem = s.dmem := rfl
@[simp] theorem State.setLatch_imem (c : Option Word) : (s.setLatch c).imem = s.imem := rfl
@[simp] theorem State.setLatch_tickBudget (c : Option Word) : (s.setLatch c).tickBudget = s.tickBudget := rfl
@[simp] theorem State.setLatch_freeCount (c : Option Word) : (s.setLatch c).freeCount = s.freeCount := rfl
@[simp] theorem State.readReg_setLatch (c : Option Word) (q : Reg) : (s.setLatch c).readReg q = s.readReg q := by
  cases q <;> rfl
@[simp] theorem State.readCell_setLatch (c : Option Word) (cell : Nat) : (s.setLatch c).readCell cell = s.readCell cell := rfl

/-! ### setCursor -/

@[simp] theorem State.setCursor_r1 (k : Nat) : (s.setCursor k).r1 = s.r1 := rfl
@[simp] theorem State.setCursor_r2 (k : Nat) : (s.setCursor k).r2 = s.r2 := rfl
@[simp] theorem State.setCursor_r3 (k : Nat) : (s.setCursor k).r3 = s.r3 := rfl
@[simp] theorem State.setCursor_r4 (k : Nat) : (s.setCursor k).r4 = s.r4 := rfl
@[simp] theorem State.setCursor_sp (k : Nat) : (s.setCursor k).sp = s.sp := rfl
@[simp] theorem State.setCursor_pc (k : Nat) : (s.setCursor k).pc = s.pc := rfl
@[simp] theorem State.setCursor_zeroFlag (k : Nat) : (s.setCursor k).zeroFlag = s.zeroFlag := rfl
@[simp] theorem State.setCursor_tick (k : Nat) : (s.setCursor k).tick = s.tick := rfl
@[simp] theorem State.setCursor_instrCounter (k : Nat) : (s.setCursor k).instrCounter = s.instrCounter := rfl
@[simp] theorem State.setCursor_interruptsEnabled (k : Nat) : (s.setCursor k).interruptsEnabled = s.interruptsEnabled := rfl
@[simp] theorem State.setCursor_inInterrupt (k : Nat) : (s.setCursor k).inInterrupt = s.inInterrupt := rfl
@[simp] theorem State.setCursor_halted (k : Nat) : (s.setCursor k).halted = s.halted := rfl
@[simp] theorem State.setCursor_inputLatch (k : Nat) : (s.setCursor k).inputLatch = s.inputLatch := rfl
@[simp] theorem State.setCursor_schedule (k : Nat) : (s.setCursor k).schedule = s.schedule := rfl
@[simp] theorem State.setCursor_cursor (k : Nat) : (s.setCursor k).cursor = k := rfl
@[simp] theorem State.setCursor_outputBuffer (k : Nat) : (s.setCursor k).outputBuffer = s.outputBuffer := rfl
@[simp] theorem State.setCursor_dmemSize (k : Nat) : (s.setCursor k).dmemSize = s.dmemSize := rfl
@[simp] theorem State.setCursor_dmem (k : Nat) : (s.setCursor k).dmem = s.dmem := rfl
@[simp] theorem State.setCursor_imem (k : Nat) : (s.setCursor k).imem = s.imem := rfl
@[simp] theorem State.setCursor_tickBudget (k : Nat) : (s.setCursor k).tickBudget = s.tickBudget := rfl
@[simp] theorem State.setCursor_freeCount (k : Nat) : (s.setCursor k).freeCount = s.freeCount := rfl
@[simp] theorem State.readReg_setCursor (k : Nat) (q : Reg) : (s.setCursor k).readReg q = s.readReg q := by
  cases q <;> rfl
@[simp] theorem State.readCell_setCursor (k : Nat) (cell : Nat) : (s.setCursor k).readCell cell = s.readCell cell := rfl

/-! ### emit -/

@[simp] theorem State.emit_r1 (v : Word) : (s.emit v).r1 = s.r1 := rfl
@[simp] theorem State.emit_r2 (v : Word) : (s.emit v).r2 = s.r2 := rfl
@[simp] theorem State.emit_r3 (v : Word) : (s.emit v).r3 = s.r3 := rfl
@[simp] theorem State.emit_r4 (v : Word) : (s.emit v).r4 = s.r4 := rfl
@[simp] theorem State.emit_sp (v : Word) : (s.emit v).sp = s.sp := rfl
@[simp] theorem State.emit_pc (v : Word) : (s.emit v).pc = s.pc := rfl
@[simp] theorem State.emit_zeroFlag (v : Word) : (s.emit v).zeroFlag = s.zeroFlag := rfl
@[simp] theorem State.emit_tick (v : Word) : (s.emit v).tick = s.tick := rfl
@[simp] theorem State.emit_instrCounter (v : Word) : (s.emit v).instrCounter = s.instrCounter := rfl
@[simp] theorem State.emit_interruptsEnabled (v : Word) : (s.emit v).interruptsEnabled = s.interruptsEnabled := rfl
@[simp] theorem State.emit_inInterrupt (v : Word) : (s.emit v).inInterrupt = s.inInterrupt := rfl
@[simp] theorem State.emit_halted (v : Word) : (s.emit v).halted = s.halted := rfl
@[simp] theorem State.emit_inputLatch (v : Word) : (s.emit v).inputLatch = s.inputLatch := rfl
@[simp] theorem State.emit_schedule (v : Word) : (s.emit v).schedule = s.schedule := rfl
@[simp] theorem State.emit_cursor (v : Word) : (s.emit v).cursor = s.cursor := rfl
@[simp] theorem State.emit_outputBuffer (v : Word) : (s.emit v).outputBuffer = s.outputBuffer ++ [v.extractLsb' 0 21] := rfl
@[simp] theorem State.emit_dmemSize (v : Word) : (s.emit v).dmemSize = s.dmemSize := rfl
@[simp] theorem State.emit_dmem (v : Word) : (s.emit v).dmem = s.dmem := rfl
@[simp] theorem State.emit_imem (v : Word) : (s.emit v).imem = s.imem := rfl
@[simp] theorem State.emit_tickBudget (v : Word) : (s.emit v).tickBudget = s.tickBudget := rfl
@[simp] theorem State.emit_freeCount (v : Word) : (s.emit v).freeCount = s.freeCount := rfl
@[simp] theorem State.readReg_emit (v : Word) (q : Reg) : (s.emit v).readReg q = s.readReg q := by
  cases q <;> rfl
@[simp] theorem State.readCell_emit (v : Word) (cell : Nat) : (s.emit v).readCell cell = s.readCell cell := rfl

/-! ### addTicks -/

@[simp] theorem State.addTicks_r1 (n : Nat) : (s.addTicks n).r1 = s.r1 := rfl
@[simp] theorem State.addTicks_r2 (n : Nat) : (s.addTicks n).r2 = s.r2 := rfl
@[simp] theorem State.addTicks_r3 (n : Nat) : (s.addTicks n).r3 = s.r3 := rfl
@[simp] theorem State.addTicks_r4 (n : Nat) : (s.addTicks n).r4 = s.r4 := rfl
@[simp] theorem State.addTicks_sp (n : Nat) : (s.addTicks n).sp = s.sp := rfl
@[simp] theorem State.addTicks_pc (n : Nat) : (s.addTicks n).pc = s.pc := rfl
@[simp] theorem State.addTicks_zeroFlag (n : Nat) : (s.addTicks n).zeroFlag = s.zeroFlag := rfl
@[simp] theorem State.addTicks_tick (n : Nat) : (s.addTicks n).tick = s.tick + n := rfl
@[simp] theorem State.addTicks_instrCounter (n : Nat) : (s.addTicks n).instrCounter = s.instrCounter := rfl
@[simp] theorem State.addTicks_interruptsEnabled (n : Nat) : (s.addTicks n).interruptsEnabled = s.interruptsEnabled := rfl
@[simp] theorem State.addTicks_inInterrupt (n : Nat) : (s.addTicks n).inInterrupt = s.inInterrupt := rfl
@[simp] theorem State.addTicks_halted (n : Nat) : (s.addTicks n).halted = s.halted := rfl
@[simp] theorem State.addTicks_inputLatch (n : Nat) : (s.addTicks n).inputLatch = s.inputLatch := rfl
@[simp] theorem State.addTicks_schedule (n : Nat) : (s.addTicks n).schedule = s.schedule := rfl
@[simp] theorem State.addTicks_cursor (n : Nat) : (s.addTicks n).cursor = s.cursor := rfl
@[simp] theorem State.addTicks_outputBuffer (n : Nat) : (s.addTicks n).outputBuffer = s.outputBuffer := rfl
@[simp] theorem State.addTicks_dmemSize (n : Nat) : (s.addTicks n).dmemSize = s.dmemSize := rfl
@[simp] theorem State.addTicks_dmem (n : Nat) : (s.addTicks n).dmem = s.dmem := rfl
@[simp] theorem State.addTicks_imem (n : Nat) : (s.addTicks n).imem = s.imem := rfl
@[simp] theorem State.addTicks_tickBudget (n : Nat) : (s.addTicks n).tickBudget = s.tickBudget := rfl
@[simp] theorem State.addTicks_freeCount (n : Nat) : (s.addTicks n).freeCount = s.freeCount := rfl
@[simp] theorem State.readReg_addTicks (n : Nat) (q : Reg) : (s.addTicks n).readReg q = s.readReg q := by
  cases q <;> rfl
@[simp] theorem State.readCell_addTicks (n : Nat) (cell : Nat) : (s.addTicks n).readCell cell = s.readCell cell := rfl

/-! ### retire -/

@[simp] theorem State.retire_r1 (a : Word) (n : Nat) : (s.retire a n).r1 = s.r1 := rfl
@[simp] theorem State.retire_r2 (a : Word) (n : Nat) : (s.retire a n).r2 = s.r2 := rfl
@[simp] theorem State.retire_r3 (a : Word) (n : Nat) : (s.retire a n).r3 = s.r3 := rfl
@[simp] theorem State.retire_r4 (a : Word) (n : Nat) : (s.retire a n).r4 = s.r4 := rfl
@[simp] theorem State.retire_sp (a : Word) (n : Nat) : (s.retire a n).sp = s.sp := rfl
@[simp] theorem State.retire_pc (a : Word) (n : Nat) : (s.retire a n).pc = a := rfl
@[simp] theorem State.retire_zeroFlag (a : Word) (n : Nat) : (s.retire a n).zeroFlag = s.zeroFlag := rfl
@[simp] theorem State.retire_tick (a : Word) (n : Nat) : (s.retire a n).tick = s.tick + n := rfl
@[simp] theorem State.retire_instrCounter (a : Word) (n : Nat) : (s.retire a n).instrCounter = s.instrCounter + 1 := rfl
@[simp] theorem State.retire_interruptsEnabled (a : Word) (n : Nat) : (s.retire a n).interruptsEnabled = s.interruptsEnabled := rfl
@[simp] theorem State.retire_inInterrupt (a : Word) (n : Nat) : (s.retire a n).inInterrupt = s.inInterrupt := rfl
@[simp] theorem State.retire_halted (a : Word) (n : Nat) : (s.retire a n).halted = s.halted := rfl
@[simp] theorem State.retire_inputLatch (a : Word) (n : Nat) : (s.retire a n).inputLatch = s.inputLatch := rfl
@[simp] theorem State.retire_schedule (a : Word) (n : Nat) : (s.retire a n).schedule = s.schedule := rfl
@[simp] theorem State.retire_cursor (a : Word) (n : Nat) : (s.retire a n).cursor = s.cursor := rfl
@[simp] theorem State.retire_outputBuffer (a : Word) (n : Nat) : (s.retire a n).outputBuffer = s.outputBuffer := rfl
@[simp] theorem State.retire_dmemSize (a : Word) (n : Nat) : (s.retire a n).dmemSize = s.dmemSize := rfl
@[simp] theorem State.retire_dmem (a : Word) (n : Nat) : (s.retire a n).dmem = s.dmem := rfl
@[simp] theorem State.retire_imem (a : Word) (n : Nat) : (s.retire a n).imem = s.imem := rfl
@[simp] theorem State.retire_tickBudget (a : Word) (n : Nat) : (s.retire a n).tickBudget = s.tickBudget := rfl
@[simp] theorem State.retire_freeCount (a : Word) (n : Nat) : (s.retire a n).freeCount = s.freeCount := rfl
@[simp] theorem State.readReg_retire (a : Word) (n : Nat) (q : Reg) : (s.retire a n).readReg q = s.readReg q := by
  cases q <;> rfl
@[simp] theorem State.readCell_retire (a : Word) (n : Nat) (cell : Nat) : (s.retire a n).readCell cell = s.readCell cell := rfl

/-! ### writeCell -/

@[simp] theorem State.writeCell_r1 (a : Nat) (v : Word) : (s.writeCell a v).r1 = s.r1 := rfl
@[simp] theorem State.writeCell_r2 (a : Nat) (v : Word) : (s.writeCell a v).r2 = s.r2 := rfl
@[simp] theorem State.writeCell_r3 (a : Nat) (v : Word) : (s.writeCell a v).r3 = s.r3 := rfl
@[simp] theorem State.writeCell_r4 (a : Nat) (v : Word) : (s.writeCell a v).r4 = s.r4 := rfl
@[simp] theorem State.writeCell_sp (a : Nat) (v : Word) : (s.writeCell a v).sp = s.sp := rfl
@[simp] theorem State.writeCell_pc (a : Nat) (v : Word) : (s.writeCell a v).pc = s.pc := rfl
@[simp] theorem State.writeCell_zeroFlag (a : Nat) (v : Word) : (s.writeCell a v).zeroFlag = s.zeroFlag := rfl
@[simp] theorem State.writeCell_tick (a : Nat) (v : Word) : (s.writeCell a v).tick = s.tick := rfl
@[simp] theorem State.writeCell_instrCounter (a : Nat) (v : Word) : (s.writeCell a v).instrCounter = s.instrCounter := rfl
@[simp] theorem State.writeCell_interruptsEnabled (a : Nat) (v : Word) : (s.writeCell a v).interruptsEnabled = s.interruptsEnabled := rfl
@[simp] theorem State.writeCell_inInterrupt (a : Nat) (v : Word) : (s.writeCell a v).inInterrupt = s.inInterrupt := rfl
@[simp] theorem State.writeCell_halted (a : Nat) (v : Word) : (s.writeCell a v).halted = s.halted := rfl
@[simp] theorem State.writeCell_inputLatch (a : Nat) (v : Word) : (s.writeCell a v).inputLatch = s.inputLatch := rfl
@[simp] theorem State.writeCell_schedule (a : Nat) (v : Word) : (s.writeCell a v).schedule = s.schedule := rfl
@[simp] theorem State.writeCell_cursor (a : Nat) (v : Word) : (s.writeCell a v).cursor = s.cursor := rfl
@[simp] theorem State.writeCell_outputBuffer (a : Nat) (v : Word) : (s.writeCell a v).outputBuffer = s.outputBuffer := rfl
@[simp] theorem State.writeCell_dmemSize (a : Nat) (v : Word) : (s.writeCell a v).dmemSize = s.dmemSize := rfl
@[simp] theorem State.writeCell_dmem (a : Nat) (v : Word) : (s.writeCell a v).dmem = Memory.write s.dmem a v := rfl
@[simp] theorem State.writeCell_imem (a : Nat) (v : Word) : (s.writeCell a v).imem = s.imem := rfl
@[simp] theorem State.writeCell_tickBudget (a : Nat) (v : Word) : (s.writeCell a v).tickBudget = s.tickBudget := rfl
@[simp] theorem State.writeCell_freeCount (a : Nat) (v : Word) : (s.writeCell a v).freeCount = s.freeCount := rfl
@[simp] theorem State.readReg_writeCell (a : Nat) (v : Word) (q : Reg) : (s.writeCell a v).readReg q = s.readReg q := by
  cases q <;> rfl

/-! ### writeReg -/

@[simp] theorem State.writeReg_r1 (r : Reg) (v : Word) :
    (s.writeReg r v).r1 = if r = .r1 then v else s.r1 := by
  cases r <;> rfl
@[simp] theorem State.writeReg_r2 (r : Reg) (v : Word) :
    (s.writeReg r v).r2 = if r = .r2 then v else s.r2 := by
  cases r <;> rfl
@[simp] theorem State.writeReg_r3 (r : Reg) (v : Word) :
    (s.writeReg r v).r3 = if r = .r3 then v else s.r3 := by
  cases r <;> rfl
@[simp] theorem State.writeReg_r4 (r : Reg) (v : Word) :
    (s.writeReg r v).r4 = if r = .r4 then v else s.r4 := by
  cases r <;> rfl
@[simp] theorem State.writeReg_sp (r : Reg) (v : Word) :
    (s.writeReg r v).sp = if r = .sp then v else s.sp := by
  cases r <;> rfl
@[simp] theorem State.writeReg_pc (r : Reg) (v : Word) : (s.writeReg r v).pc = s.pc := by
  cases r <;> rfl
@[simp] theorem State.writeReg_zeroFlag (r : Reg) (v : Word) : (s.writeReg r v).zeroFlag = s.zeroFlag := by
  cases r <;> rfl
@[simp] theorem State.writeReg_tick (r : Reg) (v : Word) : (s.writeReg r v).tick = s.tick := by
  cases r <;> rfl
@[simp] theorem State.writeReg_instrCounter (r : Reg) (v : Word) : (s.writeReg r v).instrCounter = s.instrCounter := by
  cases r <;> rfl
@[simp] theorem State.writeReg_interruptsEnabled (r : Reg) (v : Word) : (s.writeReg r v).interruptsEnabled = s.interruptsEnabled := by
  cases r <;> rfl
@[simp] theorem State.writeReg_inInterrupt (r : Reg) (v : Word) : (s.writeReg r v).inInterrupt = s.inInterrupt := by
  cases r <;> rfl
@[simp] theorem State.writeReg_halted (r : Reg) (v : Word) : (s.writeReg r v).halted = s.halted := by
  cases r <;> rfl
@[simp] theorem State.writeReg_inputLatch (r : Reg) (v : Word) : (s.writeReg r v).inputLatch = s.inputLatch := by
  cases r <;> rfl
@[simp] theorem State.writeReg_schedule (r : Reg) (v : Word) : (s.writeReg r v).schedule = s.schedule := by
  cases r <;> rfl
@[simp] theorem State.writeReg_cursor (r : Reg) (v : Word) : (s.writeReg r v).cursor = s.cursor := by
  cases r <;> rfl
@[simp] theorem State.writeReg_outputBuffer (r : Reg) (v : Word) : (s.writeReg r v).outputBuffer = s.outputBuffer := by
  cases r <;> rfl
@[simp] theorem State.writeReg_dmemSize (r : Reg) (v : Word) : (s.writeReg r v).dmemSize = s.dmemSize := by
  cases r <;> rfl
@[simp] theorem State.writeReg_dmem (r : Reg) (v : Word) : (s.writeReg r v).dmem = s.dmem := by
  cases r <;> rfl
@[simp] theorem State.writeReg_imem (r : Reg) (v : Word) : (s.writeReg r v).imem = s.imem := by
  cases r <;> rfl
@[simp] theorem State.writeReg_tickBudget (r : Reg) (v : Word) : (s.writeReg r v).tickBudget = s.tickBudget := by
  cases r <;> rfl
@[simp] theorem State.writeReg_freeCount (r : Reg) (v : Word) : (s.writeReg r v).freeCount = s.freeCount := by
  cases r <;> rfl
@[simp] theorem State.readCell_writeReg (r : Reg) (v : Word) (k : Nat) :
    (s.writeReg r v).readCell k = s.readCell k := by
  cases r <;> rfl

/-- R21: `r0` reads 0 in every state. -/
@[simp] theorem State.readReg_r0 : s.readReg .r0 = 0#32 := rfl

/-- Reading a register after a write to a register: the written value, but for `r0` (R21). -/
theorem State.readReg_writeReg (r q : Reg) (v : Word) :
    (s.writeReg r v).readReg q = if q = r ∧ r ≠ .r0 then v else s.readReg q := by
  cases r <;> cases q <;> simp [State.writeReg, State.readReg]

theorem State.readReg_writeReg_of_ne (r q : Reg) (v : Word) (h : q ≠ r) :
    (s.writeReg r v).readReg q = s.readReg q := by
  simp [State.readReg_writeReg, h]

theorem State.readReg_writeReg_self (r : Reg) (v : Word) :
    (s.writeReg r v).readReg r = if r = .r0 then 0#32 else v := by
  cases r <;> rfl

/-- Whether an address is valid depends on `DMEM_SIZE` alone. -/
theorem State.validAddr_congr {s t : State} (h : t.dmemSize = s.dmemSize) (a : Word) :
    t.validAddr a = s.validAddr a := by
  simp [State.validAddr, h]

/-- An operand's value depends on the register file alone. -/
theorem State.val_congr {s t : State} (h : ∀ r, t.readReg r = s.readReg r) (v : Operand) : t.val v = s.val v := by
  cases v <;> simp [State.val, h]

end Sys2Proof.Machine
end

