-- ==== Sys2Proof/Laws/Ops.lean ====
section
/-! SUPPORT. For each shared operation, once, what it answers: an operation that answers a next state, a
word or a fault did so in exactly the way stated here. -/

namespace Sys2Proof.Machine

/-! ### The ALU -/

/-- Narrowing a sum of signed values is the sum of the words. -/
theorem wrap32_add (l r : Word) : wrap32 (l.toInt + r.toInt) = l + r := by
  simp [wrap32, BitVec.ofInt_add]

/-- Narrowing a difference of signed values is the difference of the words. -/
theorem wrap32_sub (l r : Word) : wrap32 (l.toInt - r.toInt) = l - r := by
  apply BitVec.eq_of_toInt_eq
  simp [wrap32, BitVec.toInt_sub]

/-- The fetch increment is the increment of the word. -/
theorem nextPc_eq (pc : Word) : nextPc pc = pc + 1#32 := wrap32_add pc 1#32

theorem wrap32_succ (l : Word) : wrap32 (l.toInt + 1) = l + 1#32 := wrap32_add l 1#32

theorem wrap32_pred (l : Word) : wrap32 (l.toInt - 1) = l - 1#32 := wrap32_sub l 1#32

theorem zeroOf_eq (v : Word) : zeroOf v = decide (v = 0#32) := by
  simp [zeroOf, BEq.beq]

/-- The ALU raises nothing but `ArithError`, and only for `DIV` and `MOD` with a zero right input. -/
theorem alu_error {op : AluOp} {l r n : Word} {f : Fault} (h : alu op l r n = .error f) :
    f = .arithError ∧ (op = .div ∨ op = .mod) ∧ r = 0#32 := by
  have hz : ∀ x : Word, x.toInt = 0 → x = 0#32 := fun x hx => BitVec.eq_of_toInt_eq (by simpa using hx)
  cases op <;> simp only [alu, reduceCtorEq] at h
  all_goals
    split at h
    · next h0 => exact ⟨by simpa using h.symm, by simp, hz r h0⟩
    · simp at h

/-! ### Data memory -/

theorem State.validAddr_iff (s : State) (a : Word) :
    s.validAddr a = true ↔ 0 ≤ a.toInt ∧ a.toInt < (s.dmemSize : Int) := by
  simp [State.validAddr]

/-- A valid address is the cell index it names. -/
theorem State.validAddr_toNat {s : State} {a : Word} (h : s.validAddr a = true) :
    (a.toNat : Int) = a.toInt ∧ a.toNat < s.dmemSize := by
  obtain ⟨h0, h1⟩ := (s.validAddr_iff a).mp h
  have : (a.toNat : Int) = a.toInt := by
    rw [BitVec.toInt_eq_toNat_cond] at *
    split at h0 <;> split <;> omega
  omega

@[simp] theorem State.readCell_writeCell_of_ne (s : State) {a b : Nat} (v : Word) (h : b ≠ a) :
    (s.writeCell a v).readCell b = s.readCell b := Memory.read_write_of_ne s.dmem a b v h

theorem State.readCell_writeCell_self {s : State} (h : s.dmem.wf) (a : Nat) (v : Word) :
    (s.writeCell a v).readCell a = v := Memory.read_write_self h a v

theorem memRead_of_valid {s : State} {a : Word} (h : s.validAddr a = true) :
    memRead s a = .ok (s.readCell a.toNat) := by
  simp [memRead, h]

theorem memRead_of_invalid {s : State} {a : Word} (h : s.validAddr a = false) :
    memRead s a = .error (.memoryError .data a.toInt) := by
  simp [memRead, h]

theorem memWrite_of_valid {s : State} {a : Word} (v : Word) (h : s.validAddr a = true) :
    memWrite s a v = .ok (s.writeCell a.toNat v) := by
  simp [memWrite, h]

theorem memWrite_of_invalid {s : State} {a : Word} (v : Word) (h : s.validAddr a = false) :
    memWrite s a v = .error (.memoryError .data a.toInt) := by
  simp [memWrite, h]

/-- `MemRead` answers the cell of a valid address, or faults (R54). -/
theorem memRead_ok {s : State} {a v : Word} (h : memRead s a = .ok v) :
    s.validAddr a = true ∧ v = s.readCell a.toNat := by
  unfold memRead at h
  split at h <;> simp_all

theorem memRead_error {s : State} {a : Word} {f : Fault} (h : memRead s a = .error f) :
    s.validAddr a = false ∧ f = .memoryError .data a.toInt := by
  unfold memRead at h
  split at h <;> simp_all

/-- `MemWrite` writes one cell of a valid address and nothing else, or faults (R55). -/
theorem memWrite_ok {s t : State} {a v : Word} (h : memWrite s a v = .ok t) :
    s.validAddr a = true ∧ t = s.writeCell a.toNat v := by
  unfold memWrite at h
  split at h <;> simp_all

theorem memWrite_error {s : State} {a v : Word} {f : Fault} (h : memWrite s a v = .error f) :
    s.validAddr a = false ∧ f = .memoryError .data a.toInt := by
  unfold memWrite at h
  split at h <;> simp_all

/-- A write keeps the canonical form of data memory. -/
theorem memWrite_wf {s t : State} {a v : Word} (hs : s.dmem.wf) (h : memWrite s a v = .ok t) : t.dmem.wf := by
  obtain ⟨-, rfl⟩ := memWrite_ok h
  exact Memory.write_wf hs _ _

/-! ### Fetch -/

/-- Fetch answers the entry at a `pc` inside instruction memory (R57). -/
theorem fetch_ok {s : State} {w : InstrWord} (h : fetch s = .ok w) :
    0 ≤ s.pc.toInt ∧ s.imem[s.pc.toNat]? = some w := by
  unfold fetch at h
  split at h
  · simp at h
  · split at h <;> simp_all

theorem fetch_error {s : State} {f : Fault} (h : fetch s = .error f) : f = .memoryError .instr s.pc.toInt := by
  unfold fetch at h
  split at h
  · simp_all
  · split at h <;> simp_all

/-- Fetch and decode together: the word was fetched and is the word of the instruction decoded. -/
theorem fetchDecode_ok {s : State} {i : Instr} (h : fetchDecode s = .ok i) :
    ∃ w, fetch s = .ok w ∧ decode w = .ok i := by
  unfold fetchDecode at h
  split at h
  · simp at h
  · split at h <;> simp_all

/-! ### The interrupt -/

/-- A request is the due entry at the cursor (R191). -/
theorem State.request_eq_some {s : State} {e : InputEntry} :
    s.request = some e ↔ s.schedule[s.cursor]? = some e ∧ e.tick ≤ s.tick := by
  unfold State.request
  split
  · next e' he' =>
    by_cases ht : e'.tick ≤ s.tick
    · simp only [ht, if_true, he', Option.some.injEq]
      exact ⟨fun h => ⟨h, h ▸ ht⟩, fun h => h.1⟩
    · simp only [ht, if_false, he', Option.some.injEq, reduceCtorEq, false_iff]
      rintro ⟨rfl, h⟩
      exact ht h
  · simp_all

/-- Taking the interrupt, when it succeeds: the push was at a valid address and this is the state (R195). -/
theorem interruptEntry_ok {c : Word} {s t : State} (h : interruptEntry c s = .ok t) :
    s.validAddr (s.sp - 1#32) = true ∧
      t = ((((((((s.setCursor (s.cursor + 1)).writeReg .sp (s.sp - 1#32)).writeCell (s.sp - 1#32).toNat s.pc).setPc
        (Memory.read (Memory.write s.dmem (s.sp - 1#32).toNat s.pc) 0)).setInterrupts false true).setLatch
        (some c)).freeFlag).addTicks 4) := by
  unfold interruptEntry at h
  simp only [wrap32_pred] at h
  split at h
  · simp at h
  · next s2 h2 =>
    split at h
    · simp at h
    · next v hv =>
      obtain ⟨hvalid, rfl⟩ := memWrite_ok h2
      obtain ⟨-, rfl⟩ := memRead_ok hv
      refine ⟨?_, ?_⟩
      · simpa [State.validAddr] using hvalid
      · simpa [State.readCell] using h.symm

/-- Taking the interrupt faults only by its push (R182). -/
theorem interruptEntry_error {c : Word} {s : State} {f : Fault} (h : interruptEntry c s = .error f) :
    s.validAddr (s.sp - 1#32) = false ∧ f = .memoryError .data (s.sp - 1#32).toInt := by
  unfold interruptEntry at h
  simp only [wrap32_pred] at h
  split at h
  · next h2 =>
    obtain ⟨hinv, rfl⟩ := memWrite_error h2
    simp only [Except.error.injEq] at h
    subst h
    exact ⟨by simpa [State.validAddr] using hinv, by simp⟩
  · next s2 h2 =>
    split at h
    · next hv =>
      obtain ⟨hvalid, rfl⟩ := memWrite_ok h2
      obtain ⟨hinv, -⟩ := memRead_error hv
      have := State.validAddr_toNat hvalid
      simp [State.validAddr] at hinv this
      omega
    · simp at h

/-- Returning from the interrupt, when it succeeds (R170). -/
theorem interruptReturn_ok {s t : State} {a : Word} (h : interruptReturn s = .ok (a, t)) :
    s.validAddr s.sp = true ∧ a = s.readCell s.sp.toNat ∧
      t = (s.writeReg .sp (s.sp + 1#32)).setInterrupts true false := by
  unfold interruptReturn at h
  split at h
  · simp at h
  · next v hv =>
    obtain ⟨hvalid, rfl⟩ := memRead_ok hv
    simp only [Except.ok.injEq, Prod.mk.injEq, wrap32_succ] at h
    exact ⟨hvalid, h.1.symm, h.2.symm⟩

theorem interruptReturn_error {s : State} {f : Fault} (h : interruptReturn s = .error f) :
    s.validAddr s.sp = false ∧ f = .memoryError .data s.sp.toInt := by
  unfold interruptReturn at h
  split at h
  · next hv =>
    simp only [Except.error.injEq] at h
    subst h
    exact memRead_error hv
  · simp at h

/-- The interrupt check, when it succeeds: entries dropped, nothing, or the interrupt taken (R192). -/
theorem interruptCheck_ok {s t : State} (h : interruptCheck s = .ok t) :
    (s.inInterrupt = true ∧ t = s.setCursor (s.cursor + s.dueCount)) ∨
    (s.inInterrupt = false ∧ (s.interruptsEnabled = false ∨ s.request = none) ∧ t = s) ∨
    (s.inInterrupt = false ∧ s.interruptsEnabled = true ∧
      ∃ e, s.request = some e ∧ interruptEntry e.char s = .ok t) := by
  unfold interruptCheck at h
  split at h
  · simp_all
  · split at h
    · split at h
      · next e he => exact .inr (.inr ⟨by simp_all, by simp_all, e, he, h⟩)
      · simp_all
    · simp_all

/-! ### The instructions -/

/-- An arithmetic instruction that completes (41_arithmetic.md). -/
theorem arith_next {op : AluOp} {o a : Reg} {v : Operand} {s t : State} (h : arith op o a v s = .next t) :
    ∃ x, alu op (s.readReg a) (s.val v) 0#32 = .ok x ∧
      t = ((s.writeReg o x).setZeroFlag (zeroOf x)).retire (nextPc s.pc) 1 := by
  unfold arith at h
  split at h
  · simp at h
  · next x hx => exact ⟨x, hx, by simpa using h.symm⟩

theorem execLd_next {o : Reg} {v : Operand} {s t : State} (h : execLd o v s = .next t) :
    s.validAddr (s.val v) = true ∧
      t = (s.writeReg o (s.readCell (s.val v).toNat)).freeFlag.retire (nextPc s.pc) 1 := by
  unfold execLd at h
  split at h
  · simp at h
  · next x hx =>
    obtain ⟨hv, rfl⟩ := memRead_ok hx
    exact ⟨hv, by simpa using h.symm⟩

theorem execSv_next {a : Reg} {v : Operand} {s t : State} (h : execSv a v s = .next t) :
    s.validAddr (s.val v) = true ∧
      t = (s.writeCell (s.val v).toNat (s.readReg a)).freeFlag.retire (nextPc s.pc) 1 := by
  unfold execSv at h
  split at h
  · simp at h
  · next x hx =>
    obtain ⟨hv, rfl⟩ := memWrite_ok hx
    exact ⟨hv, by simpa using h.symm⟩

theorem execIn_next {o : Reg} {s t : State} (h : execIn o s = .next t) :
    ∃ c, s.inputLatch = some c ∧ t = ((s.writeReg o c).setLatch none).freeFlag.retire (nextPc s.pc) 1 := by
  unfold execIn at h
  split at h
  · simp at h
  · next c hc => exact ⟨c, hc, by simpa using h.symm⟩

theorem execIret_next {s t : State} (h : execIret s = .next t) :
    s.validAddr s.sp = true ∧
      t = ((s.writeReg .sp (s.sp + 1#32)).setInterrupts true false).freeFlag.retire (s.readCell s.sp.toNat) 2 := by
  unfold execIret at h
  split at h
  · simp at h
  · next a u hu =>
    obtain ⟨hv, rfl, rfl⟩ := interruptReturn_ok hu
    exact ⟨hv, by simpa using h.symm⟩

/-! ### The cycle -/

/-- A cycle that begins: the budget allows it, the check answers `s1`, and `i` is what `s1` fetches. -/
theorem beginCycle_ok {s s1 : State} {i : Instr} (h : beginCycle s = .ok (i, s1)) :
    s.budgetExceeded = false ∧ interruptCheck s = .ok s1 ∧ fetchDecode s1 = .ok i := by
  unfold beginCycle at h
  split at h
  · simp at h
  · split at h
    · simp at h
    · split at h <;> simp_all

/-- A step that answers a next state: the machine was halted and stays, or one cycle ran. -/
theorem step_next {s t : State} (h : step s = .next t) :
    (s.halted = true ∧ t = s) ∨
    (s.halted = false ∧ ∃ i s1, beginCycle s = .ok (i, s1) ∧ exec i s1 = .next t) := by
  unfold step at h
  split at h
  · simp_all
  · split at h
    · simp at h
    · next i s1 hb => exact .inr ⟨by simp_all, i, s1, hb, h⟩

/-! ### Placing an instruction where the next cycle fetches -/

theorem placeWord_get (ws : List InstrWord) (k : Nat) (w : InstrWord) : (placeWord ws k w)[k]? = some w := by
  induction k generalizing ws with
  | zero => cases ws <;> simp [placeWord]
  | succ k ih => cases ws <;> simp [placeWord, ih]

end Sys2Proof.Machine
end

