-- ==== Sys2Proof/Laws/PerInstr.lean ====
section
/-! SUPPORT. The statements made per instruction (LAWS.json), with one lemma for each constructor of `Instr`. -/

namespace Sys2Proof.Laws.EncodedOpcode

/-- The word of an instruction carries its opcode number in bits 47 to 43 and zero in the reserved bits
35 to 32 (spec 30_encoding.md R76, R77), and every field its format lacks is zero (R79). -/
def Statement (i : Instr) : Prop :=
  fieldOpcode (encode i) = i.opcode.number ∧ fieldReserved (encode i) = 0#4 ∧
    unusedFieldsZero i.opcode.format (encode i) = true

theorem add (o a : Reg) (v : Operand) : Statement (.add o a v) := by
  simp [Statement, encode, Instr.opcode, unusedFieldsZero, Opcode.format, Format.hasOut, Format.hasArg1, Format.hasArg2]

theorem sub (o a : Reg) (v : Operand) : Statement (.sub o a v) := by
  simp [Statement, encode, Instr.opcode, unusedFieldsZero, Opcode.format, Format.hasOut, Format.hasArg1, Format.hasArg2]

theorem div (o a : Reg) (v : Operand) : Statement (.div o a v) := by
  simp [Statement, encode, Instr.opcode, unusedFieldsZero, Opcode.format, Format.hasOut, Format.hasArg1, Format.hasArg2]

theorem mod (o a : Reg) (v : Operand) : Statement (.mod o a v) := by
  simp [Statement, encode, Instr.opcode, unusedFieldsZero, Opcode.format, Format.hasOut, Format.hasArg1, Format.hasArg2]

theorem mul (o a : Reg) (v : Operand) : Statement (.mul o a v) := by
  simp [Statement, encode, Instr.opcode, unusedFieldsZero, Opcode.format, Format.hasOut, Format.hasArg1, Format.hasArg2]

theorem cmp (o a : Reg) (v : Operand) : Statement (.cmp o a v) := by
  simp [Statement, encode, Instr.opcode, unusedFieldsZero, Opcode.format, Format.hasOut, Format.hasArg1, Format.hasArg2]

theorem je (a : Reg) (v : Operand) : Statement (.je a v) := by
  simp [Statement, encode, Instr.opcode, unusedFieldsZero, Opcode.format, Format.hasOut, Format.hasArg1, Format.hasArg2]

theorem jne (a : Reg) (v : Operand) : Statement (.jne a v) := by
  simp [Statement, encode, Instr.opcode, unusedFieldsZero, Opcode.format, Format.hasOut, Format.hasArg1, Format.hasArg2]

theorem jmp (v : Operand) : Statement (.jmp v) := by
  simp [Statement, encode, Instr.opcode, unusedFieldsZero, Opcode.format, Format.hasOut, Format.hasArg1, Format.hasArg2]

theorem out (v : Operand) : Statement (.out v) := by
  simp [Statement, encode, Instr.opcode, unusedFieldsZero, Opcode.format, Format.hasOut, Format.hasArg1, Format.hasArg2]

theorem in_ (o : Reg) : Statement (.in_ o) := by
  simp [Statement, encode, Instr.opcode, unusedFieldsZero, Opcode.format, Format.hasOut, Format.hasArg1, Format.hasArg2]

theorem ld (o : Reg) (v : Operand) : Statement (.ld o v) := by
  simp [Statement, encode, Instr.opcode, unusedFieldsZero, Opcode.format, Format.hasOut, Format.hasArg1, Format.hasArg2]

theorem sv (a : Reg) (v : Operand) : Statement (.sv a v) := by
  simp [Statement, encode, Instr.opcode, unusedFieldsZero, Opcode.format, Format.hasOut, Format.hasArg1, Format.hasArg2]

theorem iret : Statement .iret := by
  simp [Statement, encode, Instr.opcode, unusedFieldsZero, Opcode.format, Format.hasOut, Format.hasArg1, Format.hasArg2]

theorem sti : Statement .sti := by
  simp [Statement, encode, Instr.opcode, unusedFieldsZero, Opcode.format, Format.hasOut, Format.hasArg1, Format.hasArg2]

theorem cli : Statement .cli := by
  simp [Statement, encode, Instr.opcode, unusedFieldsZero, Opcode.format, Format.hasOut, Format.hasArg1, Format.hasArg2]

theorem halt : Statement .halt := by
  simp [Statement, encode, Instr.opcode, unusedFieldsZero, Opcode.format, Format.hasOut, Format.hasArg1, Format.hasArg2]

end Sys2Proof.Laws.EncodedOpcode
end

