-- ==== Sys2Proof/Tests/Slice0.lean ====
section
/-! SUPPORT. Tests: ill-formed terms refused, words written out from the patterns of spec/30_encoding.md R83,
one-cycle vectors of spec/95_test_vectors.md section 2, and a witness for the hypotheses of each statement. -/

namespace Sys2Proof.Tests

open Sys2Proof.Machine

/-! ### Helpers -/

/-- The outcome is a next state that passes the check. -/
def passes (o : Host.Outcome State Fault Refusal) (p : State → Bool) : Bool :=
  match o with
  | .next t => p t
  | .fault _ => false
  | .refused _ => false

/-- The outcome is this fault. -/
def faults (o : Host.Outcome State Fault Refusal) (f : Fault) : Bool :=
  match o with
  | .next _ => false
  | .fault g => decide (f = g)
  | .refused _ => false

/-- The next state, and the given one where there is none. -/
def afterOr (s : State) (o : Host.Outcome State Fault Refusal) : State :=
  match o with
  | .next t => t
  | .fault _ => s
  | .refused _ => s

/-- The start of the vectors of sections 2.1 to 2.5, with the memory of section 2.3. -/
def start : State :=
  { State.reset with pc := 10, tick := 100, instrCounter := 50, sp := 5, dmemSize := 8
                     dmem := [(1, 65), (2, 66), (3, 67), (5, 48)] }

/-- The echo program of S2. -/
def echoProgram : List InstrWord :=
  [0x700000000000#48, 0x401000000001#48, 0x510000000000#48, 0x480000000001#48, 0x680000000000#48]

/-- The state before each row of section 2.6. -/
def idle (enabled inHandler : Bool) : State :=
  { State.reset with pc := 1, sp := 5, tick := 6, instrCounter := 6, interruptsEnabled := enabled
                     inInterrupt := inHandler, dmemSize := 6, dmem := [(0, 2)], imem := echoProgram
                     schedule := [⟨6, 104⟩, ⟨7, 101⟩] }

/-! ### Well-formedness (R74, R79): each clause refuses -/

theorem test_wf_add_r0 : (Instr.add .r0 .r1 (.const 1)).wellFormed = false := by decide
theorem test_wf_sub_r0 : (Instr.sub .r0 .r1 (.const 1)).wellFormed = false := by decide
theorem test_wf_div_r0 : (Instr.div .r0 .r1 (.const 1)).wellFormed = false := by decide
theorem test_wf_mod_r0 : (Instr.mod .r0 .r1 (.const 1)).wellFormed = false := by decide
theorem test_wf_mul_r0 : (Instr.mul .r0 .r1 (.const 1)).wellFormed = false := by decide
theorem test_wf_cmp_r0 : (Instr.cmp .r0 .r1 (.const 1)).wellFormed = false := by decide
theorem test_wf_ld_r0 : (Instr.ld .r0 (.const 1)).wellFormed = false := by decide
theorem test_wf_in_r0 : (Instr.in_ .r0).wellFormed = false := by decide

/-- R74 (b): a slot that the format lacks. -/
theorem test_wf_record_extra_slot :
    (Record.wellFormed { opcode := .halt, out := some .r1 }) = false ∧
    (Record.wellFormed { opcode := .in_, out := some .r1, arg1 := some .r2 }) = false ∧
    (Record.wellFormed { opcode := .sti, arg2 := some (.int 0), arg2Type := some .const }) = false := by decide

/-- R74 (b): a slot of the format that is missing. -/
theorem test_wf_record_missing_slot :
    (Record.wellFormed { opcode := .in_ }) = false ∧
    (Record.wellFormed { opcode := .je, arg2 := some (.int 0), arg2Type := some .const }) = false ∧
    (Record.wellFormed { opcode := .jmp }) = false := by decide

/-- R74 (b): `arg2_type` present exactly when `arg2` is. -/
theorem test_wf_record_type_presence :
    (Record.wellFormed { opcode := .halt, arg2Type := some .const }) = false ∧
    (Record.wellFormed { opcode := .jmp, arg2 := some (.int 0) }) = false := by decide

/-- R74 (c): `out` is neither `r0` nor `pc`. -/
theorem test_wf_record_out :
    (Record.wellFormed { opcode := .in_, out := some .r0 }) = false ∧
    (Record.wellFormed { opcode := .in_, out := some .pc }) = false := by decide

/-- R74 (d): `arg1` is not `pc`. -/
theorem test_wf_record_arg1 :
    (Record.wellFormed { opcode := .je, arg1 := some .pc, arg2 := some (.int 0), arg2Type := some .const }) = false := by
  decide

/-- R74 (e): `arg2` is of the class of its type, not `pc`, and in 32 bits. -/
theorem test_wf_record_arg2 :
    (Record.wellFormed { opcode := .jmp, arg2 := some (.name .pc), arg2Type := some .register }) = false ∧
    (Record.wellFormed { opcode := .jmp, arg2 := some (.int 1), arg2Type := some .register }) = false ∧
    (Record.wellFormed { opcode := .jmp, arg2 := some (.name .r1), arg2Type := some .const }) = false ∧
    (Record.wellFormed { opcode := .jmp, arg2 := some (.int 2147483648), arg2Type := some .const }) = false ∧
    (Record.wellFormed { opcode := .jmp, arg2 := some (.int (-2147483649)), arg2Type := some .const }) = false := by
  decide

/-- The record of the worked example of section 4 of 30_encoding.md is well-formed, and reads as its instruction. -/
theorem test_record_of_example :
    (Record.toInstr? { opcode := .jne, arg1 := some .r2, arg2 := some (.int 2), arg2Type := some .const }) =
      some (.jne .r2 (.const 2)) := by decide

/-- The illegal words of section 2.7 and the legal one beside them. -/
theorem test_legal_words :
    legalWord 0x010000000000#48 = true ∧ legalWord 0x000000000000#48 = false ∧
    legalWord 0x01C000000000#48 = false ∧ legalWord 0x880000000000#48 = false ∧
    legalWord 0xF80000000000#48 = false ∧ legalWord 0x480100000000#48 = false ∧
    legalWord 0x480000000006#48 = false ∧ legalWord 0x480000000008#48 = false ∧
    legalWord 0x410000000001#48 = false ∧ legalWord 0x700000000001#48 = false ∧
    legalWord 0x511000000000#48 = false := by decide

/-- The decoder names what it rejects. -/
theorem test_decode_rejects :
    decode 0x880000000000#48 = .error .unassignedOpcode ∧ decode 0x480100000000#48 = .error .reservedBits ∧
    decode 0x410000000001#48 = .error .unusedField ∧ decode 0x511000000000#48 = .error .unusedField ∧
    decode 0x000000000000#48 = .error .badOut ∧ decode 0x01C000000000#48 = .error .badArg1 ∧
    decode 0x480000000006#48 = .error .badArg2 ∧ decode 0x480000000008#48 = .error .badArg2 := by
  refine ⟨?_, ?_, ?_, ?_, ?_, ?_, ?_, ?_⟩ <;> rfl

/-! ### Decoding (R83): one word of each instruction, its bits written field by field -/

theorem test_decode_add :
    decodeTableWord 48 0b00000_001_001_0_0000_00000000000000000000000000000010 = some (.add .r1 .r1 (.reg .r2)) := by
  rfl
theorem test_decode_sub :
    decodeTableWord 48 0b00001_010_010_1_0000_00000000000000000000000000000001 = some (.sub .r2 .r2 (.const 1)) := by
  rfl
theorem test_decode_div :
    decodeTableWord 48 0b00010_001_001_1_0000_00000000000000000000000000001010 = some (.div .r1 .r1 (.const 10)) := by
  rfl
theorem test_decode_mod :
    decodeTableWord 48 0b00011_010_001_1_0000_00000000000000000000000000001010 = some (.mod .r2 .r1 (.const 10)) := by
  rfl
theorem test_decode_mul :
    decodeTableWord 48 0b00100_011_001_1_0000_00000000000000000000000000000111 = some (.mul .r3 .r1 (.const 7)) := by
  rfl
theorem test_decode_cmp :
    decodeTableWord 48 0b00101_010_001_1_0000_00000000000000000000000000100001 = some (.cmp .r2 .r1 (.const 33)) := by
  rfl
theorem test_decode_je :
    decodeTableWord 48 0b00110_000_010_1_0000_00000000000000000000000000000111 = some (.je .r2 (.const 7)) := by
  rfl
theorem test_decode_jne :
    decodeTableWord 48 0b00111_000_010_1_0000_00000000000000000000000000000010 = some (.jne .r2 (.const 2)) := by
  rfl
theorem test_decode_jmp :
    decodeTableWord 48 0b01000_000_000_1_0000_11111111111111111111111111111111 = some (.jmp (.const 0xFFFFFFFF)) := by
  rfl
theorem test_decode_out :
    decodeTableWord 48 0b01001_000_000_0_0000_00000000000000000000000000000001 = some (.out (.reg .r1)) := by
  rfl
theorem test_decode_in :
    decodeTableWord 48 0b01010_101_000_0_0000_00000000000000000000000000000000 = some (.in_ .sp) := by
  rfl
theorem test_decode_ld :
    decodeTableWord 48 0b01011_010_000_0_0000_00000000000000000000000000000101 = some (.ld .r2 (.reg .sp)) := by
  rfl
theorem test_decode_sv :
    decodeTableWord 48 0b01100_000_011_1_0000_00000000000000000000000000000000 = some (.sv .r3 (.const 0)) := by
  rfl
theorem test_decode_iret :
    decodeTableWord 48 0b01101_000_000_0_0000_00000000000000000000000000000000 = some .iret := by rfl
theorem test_decode_sti :
    decodeTableWord 48 0b01110_000_000_0_0000_00000000000000000000000000000000 = some .sti := by rfl
theorem test_decode_cli :
    decodeTableWord 48 0b01111_000_000_0_0000_00000000000000000000000000000000 = some .cli := by rfl
theorem test_decode_halt :
    decodeTableWord 48 0b10000_000_000_0_0000_00000000000000000000000000000000 = some .halt := by rfl

/-- The words of the instruction rules, from the encoder. -/
theorem test_encode_examples :
    encode (.add .r1 .r1 (.reg .r2)) = 0x012000000002#48 ∧ encode (.mul .r3 .r1 (.const 7)) = 0x233000000007#48 ∧
    encode (.jne .r2 (.const 2)) = 0x385000000002#48 ∧ encode (.out (.const 65)) = 0x481000000041#48 ∧
    encode (.in_ .r1) = 0x510000000000#48 ∧ encode (.ld .r2 (.reg .sp)) = 0x5A0000000005#48 ∧
    encode (.sv .r2 (.reg .sp)) = 0x604000000005#48 ∧ encode .iret = 0x680000000000#48 := by decide

/-! ### One cycle of each instruction (95_test_vectors.md sections 2.1 to 2.5) -/

theorem test_add_wraps : passes (exec (.add .r3 .r1 (.reg .r2)) { start with r1 := 0x7FFFFFFF, r2 := 1 })
    (fun t => t.r3 == 0x80000000#32 && !t.zeroFlag && t.pc == 11#32 && t.tick == 101 && t.instrCounter == 51) = true := by
  decide
theorem test_add_from_r0 : passes (exec (.add .r1 .r0 (.const 1203)) { start with r1 := 7 })
    (fun t => t.r1 == 1203#32 && !t.zeroFlag) = true := by decide
theorem test_sub_negates : passes (exec (.sub .r2 .r0 (.reg .r2)) { start with r2 := 5 })
    (fun t => t.r2 == 0xFFFFFFFB#32 && !t.zeroFlag) = true := by decide
theorem test_sub_equal : passes (exec (.sub .r3 .r1 (.reg .r2)) { start with r1 := 5, r2 := 5, r3 := 9 })
    (fun t => t.r3 == 0#32 && t.zeroFlag) = true := by decide
theorem test_mul_low_half : passes (exec (.mul .r3 .r1 (.reg .r2)) { start with r1 := 65536, r2 := 65536, r3 := 1 })
    (fun t => t.r3 == 0#32 && t.zeroFlag) = true := by decide
theorem test_mul_signed : passes (exec (.mul .r3 .r1 (.reg .r2)) { start with r1 := 46341, r2 := 46341 })
    (fun t => t.r3 == 0x80001219#32 && !t.zeroFlag) = true := by decide
theorem test_div_truncates : passes (exec (.div .r3 .r1 (.reg .r2)) { start with r1 := 0xFFFFFFF9, r2 := 2 })
    (fun t => t.r3 == 0xFFFFFFFD#32 && t.r1 == 0xFFFFFFF9#32) = true := by decide
theorem test_div_overflows : passes (exec (.div .r3 .r1 (.reg .r2)) { start with r1 := 0x80000000, r2 := 0xFFFFFFFF })
    (fun t => t.r3 == 0x80000000#32) = true := by decide
theorem test_mod_sign : passes (exec (.mod .r3 .r1 (.reg .r2)) { start with r1 := 0xFFFFFFF9, r2 := 2 })
    (fun t => t.r3 == 0xFFFFFFFF#32) = true := by decide
theorem test_mod_zero_faults : faults (exec (.mod .r3 .r1 (.reg .r2)) start) .arithError = true := by decide
theorem test_cmp_overflows : passes (exec (.cmp .r3 .r1 (.reg .r2)) { start with r1 := 0x80000000, r2 := 1 })
    (fun t => t.r3 == 0x7FFFFFFF#32 && !t.zeroFlag) = true := by decide
theorem test_cmp_equal : passes (exec (.cmp .r2 .r1 (.const 33)) { start with r1 := 33, r2 := 4 })
    (fun t => t.r2 == 0#32 && t.zeroFlag) = true := by decide
theorem test_je_taken : passes (exec (.je .r1 (.reg .r2)) { start with r2 := 9 })
    (fun t => t.pc == 9#32 && t.tick == 102 && t.instrCounter == 51) = true := by decide
theorem test_je_not_taken : passes (exec (.je .r1 (.const 7)) { start with r1 := 0x80000000 })
    (fun t => t.pc == 11#32 && t.tick == 101) = true := by decide
theorem test_jne_taken : passes (exec (.jne .r2 (.const 2)) { start with r2 := 0x80000000 })
    (fun t => t.pc == 2#32 && t.tick == 102) = true := by decide
theorem test_jne_r0 : passes (exec (.jne .r0 (.const 2)) start)
    (fun t => t.pc == 11#32 && t.tick == 101) = true := by decide
theorem test_jmp_register : passes (exec (.jmp (.reg .r3)) { start with r3 := 4 })
    (fun t => t.pc == 4#32 && t.tick == 101) = true := by decide
theorem test_jmp_unchecked : passes (exec (.jmp (.const 0xFFFFFFFF)) start)
    (fun t => t.pc == 0xFFFFFFFF#32 && faults (step t) (.memoryError .instr (-1))) = true := by decide
theorem test_ld_own_address : passes (exec (.ld .r1 (.reg .r1)) { start with r1 := 2 })
    (fun t => t.r1 == 66#32 && t.pc == 11#32 && t.tick == 101) = true := by decide
theorem test_ld_negative : faults (exec (.ld .r1 (.const 0xFFFFFFFF)) start) (.memoryError .data (-1)) = true := by decide
theorem test_sv_data_then_address : passes (exec (.sv .r1 (.reg .r2)) { start with r1 := 0xFFFFFFF7, r2 := 2 })
    (fun t => t.dmem == [(1, 65), (2, 0xFFFFFFF7), (3, 67), (5, 48)] && t.tick == 101) = true := by decide
theorem test_sv_zero_and_edge : passes (exec (.sv .r0 (.const 3)) start)
    (fun t => t.dmem == [(1, 65), (2, 66), (5, 48)]) = true ∧
    faults (exec (.sv .r1 (.const 8)) start) (.memoryError .data 8) = true := by decide
theorem test_in_takes_latch : passes (exec (.in_ .sp) { start with inputLatch := some 33 })
    (fun t => t.sp == 33#32 && t.inputLatch == none && t.tick == 101) = true := by decide
theorem test_in_empty : faults (exec (.in_ .r1) start) .ioError = true := by decide
theorem test_out_low_bits : passes (exec (.out (.const 2097217)) { start with outputBuffer := [7] })
    (fun t => t.outputBuffer == [7, 65]) = true := by decide
theorem test_out_minus_one : passes (exec (.out (.const 0xFFFFFFFF)) start)
    (fun t => t.outputBuffer == [0x1FFFFF]) = true := by decide
theorem test_iret_pops : passes
    (exec .iret { start with sp := 4, dmem := [(4, 1)], inInterrupt := true, pc := 4, tick := 12, instrCounter := 8 })
    (fun t => t.pc == 1#32 && t.sp == 5#32 && !t.inInterrupt && t.interruptsEnabled && t.tick == 14 &&
      t.instrCounter == 9 && t.dmem == [(4, 1)]) = true := by decide
theorem test_iret_edges : passes (exec .iret { start with sp := 7, dmem := [(7, 7)] })
    (fun t => t.pc == 7#32 && t.sp == 8#32) = true ∧
    faults (exec .iret { start with sp := 8 }) (.memoryError .data 8) = true := by decide
theorem test_sti_in_handler : passes (exec .sti { start with inInterrupt := true })
    (fun t => t.interruptsEnabled && t.inInterrupt && t.pc == 11#32 && t.tick == 101) = true := by decide
theorem test_cli : passes (exec .cli { start with interruptsEnabled := true })
    (fun t => !t.interruptsEnabled && t.pc == 11#32 && t.tick == 101) = true := by decide
theorem test_halt : passes (exec .halt { start with pc := 6, tick := 6, instrCounter := 6 })
    (fun t => t.halted && t.pc == 7#32 && t.tick == 7 && t.instrCounter == 7) = true := by decide

/-! ### The interrupt check (95_test_vectors.md section 2.6) -/

theorem test_check_enters : passes (step (idle true false)) (fun t =>
    t.pc == 3#32 && t.r1 == 104#32 && t.inputLatch == none && t.tick == 11 && t.instrCounter == 7 && t.sp == 4#32 &&
    t.cursor == 1 && t.dmem == [(0, 2), (4, 1)] && t.inInterrupt && !t.interruptsEnabled) = true := by decide
theorem test_check_masked : passes (step (idle false false)) (fun t =>
    t.pc == 1#32 && t.tick == 7 && t.instrCounter == 7 && t.cursor == 0) = true := by decide
theorem test_check_drops : passes (step (idle true true)) (fun t =>
    t.cursor == 1 && t.pc == 1#32 && t.tick == 7 && t.inputLatch == none) = true := by decide
theorem test_check_not_due : passes (step { idle true false with tick := 5 }) (fun t =>
    t.tick == 6 && t.cursor == 0) = true := by decide
theorem test_check_drops_both : passes (step { idle false true with tick := 9 }) (fun t => t.cursor == 2) = true := by
  decide
theorem test_check_push_faults : faults (step { idle true false with sp := 0 }) (.memoryError .data (-1)) = true := by
  decide
theorem test_check_overwrites_vector : passes (step { idle true false with sp := 1 }) (fun t =>
    t.sp == 0#32 && t.dmem == [(0, 1)] && t.pc == 1#32 && t.inInterrupt && !t.interruptsEnabled &&
    t.inputLatch == some 104#32 && t.tick == 11 && t.instrCounter == 7) = true := by decide

/-! ### Reset and load -/

/-- The reset state is the load of an empty program with a zero vector cell into the largest memory. -/
theorem test_reset_is_empty_load : load ⟨[], [0]⟩ { dmemSize := 2147483648 } = .ok State.reset := by rfl

/-- The artifact of P1, and its first cycle. -/
theorem test_load_then_step :
    (match load ⟨[{ opcode := .ld, out := some .r1, arg2 := some (.int 1), arg2Type := some .const }], [0, 65, 66, 67]⟩
        { dmemSize := 8 } with
      | .error _ => false
      | .ok s => s.sp == 7#32 && passes (step s) (fun t => t.r1 == 65#32 && t.pc == 1#32)) = true := by decide

theorem test_load_refuses :
    load ⟨[{ opcode := .halt }, { opcode := .jmp }], [0]⟩ { dmemSize := 8 } = .error (.illFormedInstruction 1) ∧
    load ⟨[], []⟩ { dmemSize := 8 } = .error .noVectorCell ∧
    load ⟨[], [0, 1]⟩ { dmemSize := 1 } = .error .badDataMemorySize ∧
    load ⟨[], [0]⟩ { dmemSize := 8, schedule := [(2, 65), (1, 66)] } = .error .badSchedule ∧
    load ⟨[], [0]⟩ { dmemSize := 8, schedule := [(-1, 65)] } = .error .badSchedule := by
  refine ⟨?_, ?_, ?_, ?_, ?_⟩ <;> rfl

/-- A placed word runs as the first instruction after reset, and inside a handler with an entry due. -/
theorem test_placed_word_runs :
    passes (step (State.reset.withFetchWord 48 0x0110000004B3)) (fun t => t.r1 == 1203#32 && t.pc == 1#32) = true ∧
    passes (step ((idle true false).withFetchWord 48 0x0110000004B3)) (fun t => t.r1 == 1203#32 && t.pc == 3#32) = true := by
  decide

/-! ### Witnesses: concrete terms that meet all the hypotheses of a statement together, at the boundaries of
its clauses. Each is named after its statement in Certificates/Slice0/Obligations.lean. -/

theorem witness_DecodeInvertsEncode : (Instr.ld .sp (.const 0x80000000)).wellFormed = true := by decide
theorem witness_EncodeInvertsDecode : decode 0x5D1000000003#48 = .ok (.ld .sp (.const 3)) := by rfl

/-- An illegal word at the first and at the last entry of a program. -/
theorem witness_IllegalWordsFault :
    (let s := { start with pc := 0, imem := [0x000000000000#48, 0x800000000000#48] }
     s.halted = false ∧ s.budgetExceeded = false ∧ interruptCheck s = .ok s ∧ fetch s = .ok 0x000000000000#48 ∧
       legalWord 0x000000000000#48 = false) ∧
    (let s := { start with pc := 1, imem := [0x800000000000#48, 0x880000000000#48] }
     s.halted = false ∧ s.budgetExceeded = false ∧ interruptCheck s = .ok s ∧ fetch s = .ok 0x880000000000#48 ∧
       legalWord 0x880000000000#48 = false) :=
  ⟨⟨rfl, rfl, rfl, rfl, rfl⟩, ⟨rfl, rfl, rfl, rfl, rfl⟩⟩

theorem witness_RecordsAndInstructionsAgree :
    (Instr.sv .r0 (.reg .sp)).wellFormed = true ∧
    Record.wellFormed { opcode := .jmp, arg2 := some (.int (-2147483648)), arg2Type := some .const } = true ∧
    Record.toInstr? { opcode := .jmp, arg2 := some (.int (-2147483648)), arg2Type := some .const } =
      some (.jmp (.const 0x80000000)) := ⟨rfl, rfl, rfl⟩

/-- Both branches, with a register and an immediate divisor. -/
theorem witness_DivWritesQuotientOrFaults :
    start.val (.reg .r0) = 0#32 ∧ start.val (.const 0) = 0#32 ∧ start.val (.reg .sp) ≠ 0#32 ∧
    start.val (.const 10) ≠ 0#32 := by decide
theorem witness_ModWritesRemainderOrFaults :
    start.val (.reg .r2) = 0#32 ∧ start.val (.const 0) = 0#32 ∧ start.val (.reg .sp) ≠ 0#32 ∧
    start.val (.const 0x80000000) ≠ 0#32 := by decide

/-- The smallest and the largest difference that does not overflow. -/
theorem witness_CmpWritesDifference :
    (let s := { start with r1 := 0x80000000 };
     -2 ^ 31 ≤ (s.readReg .r1).toInt - (s.val (.const 0)).toInt ∧
     (s.readReg .r1).toInt - (s.val (.const 0)).toInt < 2 ^ 31) ∧
    (let s := { start with r1 := 0x7FFFFFFF };
     -2 ^ 31 ≤ (s.readReg .r1).toInt - (s.val (.const 0)).toInt ∧
     (s.readReg .r1).toInt - (s.val (.const 0)).toInt < 2 ^ 31) := by decide

theorem witness_AluFollowsItsTable : (0#32 = 0#32) ∧ (0xFFFFFFFF#32 ≠ 0#32) := by decide
theorem witness_DivisionTruncatesTowardZero : (-1 : Int) ≠ 0 ∧ (1 : Int) ≠ 0 := by decide

theorem witness_JeJumpsOnZero :
    start.readReg .r0 = 0#32 ∧ start.readReg .r1 = 0#32 ∧ start.readReg .sp ≠ 0#32 := by decide
theorem witness_JneJumpsOnNonzero :
    start.readReg .r0 = 0#32 ∧ start.readReg .sp ≠ 0#32 := by decide

/-- The first and the last valid address, and the addresses just outside. -/
theorem witness_LdLoadsCellOrFaults :
    (0 ≤ (start.val (.const 0)).toInt ∧ (start.val (.const 0)).toInt < start.dmemSize) ∧
    (0 ≤ (start.val (.const 7)).toInt ∧ (start.val (.const 7)).toInt < start.dmemSize) ∧
    ¬ (0 ≤ (start.val (.const 8)).toInt ∧ (start.val (.const 8)).toInt < start.dmemSize) ∧
    ¬ (0 ≤ (start.val (.const 0xFFFFFFFF)).toInt ∧ (start.val (.const 0xFFFFFFFF)).toInt < start.dmemSize) := by
  decide
theorem witness_SvStoresRegisterOrFaults :
    start.dmem.wf ∧
    (0 ≤ (start.val (.const 0)).toInt ∧ (start.val (.const 0)).toInt < start.dmemSize) ∧
    (0 ≤ (start.val (.const 7)).toInt ∧ (start.val (.const 7)).toInt < start.dmemSize) ∧
    ¬ (0 ≤ (start.val (.const 8)).toInt ∧ (start.val (.const 8)).toInt < start.dmemSize) ∧
    ¬ (0 ≤ (start.val (.const 0xFFFFFFFF)).toInt ∧ (start.val (.const 0xFFFFFFFF)).toInt < start.dmemSize) := by
  decide
theorem witness_InTakesLatchOrFaults :
    ({ start with inputLatch := some 0x10FFFF#32 } : State).inputLatch = some 0x10FFFF#32 ∧
    ({ start with inputLatch := some 0#32 } : State).inputLatch = some 0#32 ∧ start.inputLatch = none := by decide
theorem witness_IretPopsPcOrFaults :
    (let s := { start with sp := 0 }; 0 ≤ s.sp.toInt ∧ s.sp.toInt < s.dmemSize) ∧
    (let s := { start with sp := 7 }; 0 ≤ s.sp.toInt ∧ s.sp.toInt < s.dmemSize) ∧
    (let s := { start with sp := 8 }; ¬ (0 ≤ s.sp.toInt ∧ s.sp.toInt < s.dmemSize)) ∧
    (let s := { start with sp := 0xFFFFFFFF }; ¬ (0 ≤ s.sp.toInt ∧ s.sp.toInt < s.dmemSize)) := by decide
theorem witness_HaltCompletesAndStays : ({ start with halted := true } : State).halted = true := by decide
theorem witness_RegisterFileReadsBackWrites : Reg.r1 ≠ .r0 ∧ Reg.sp ≠ .r0 := by decide

/-- The largest data memory, at the two words where the signed reading turns. -/
theorem witness_SignedAndUnsignedAddressesAgree :
    State.reset.dmemSize ≤ 2 ^ 31 ∧ State.reset.validAddr 0x7FFFFFFF = true ∧
    State.reset.validAddr 0x80000000 = false := by decide
theorem witness_MemoryReadsBackWrites :
    start.dmem.wf ∧ (0 ≤ (0#32).toInt ∧ (0#32).toInt < start.dmemSize) ∧
    (0 ≤ (7#32).toInt ∧ (7#32).toInt < start.dmemSize) ∧ ¬ (0 ≤ (8#32).toInt ∧ (8#32).toInt < start.dmemSize) ∧
    ¬ (0 ≤ (0xFFFFFFFF#32).toInt ∧ (0xFFFFFFFF#32).toInt < start.dmemSize) := by decide

/-- The first and the last entry, and the two values of `pc` just outside. -/
theorem witness_FetchReadsProgramOrFaults :
    (let s := { idle true false with pc := 0 }; s.pc.toInt = ((0 : Nat) : Int) ∧ 0 < s.imem.length) ∧
    (let s := { idle true false with pc := 4 }; s.pc.toInt = ((4 : Nat) : Int) ∧ 4 < s.imem.length) ∧
    (let s := { idle true false with pc := 5 }; (s.imem.length : Int) ≤ s.pc.toInt) ∧
    (let s := { idle true false with pc := 0xFFFFFFFF }; s.pc.toInt < 0) := by decide

/-- The decremented `sp` at the vector cell, at the last cell, and just outside. -/
theorem witness_InterruptEntryPushesAndVectors :
    (let s := { idle true false with sp := 1 }
     s.dmem.wf ∧ 0 ≤ (s.sp - 1#32).toInt ∧ (s.sp - 1#32).toInt < s.dmemSize ∧ (s.sp - 1#32).toNat = 0) ∧
    (let s := { idle true false with sp := 6 }
     s.dmem.wf ∧ 0 ≤ (s.sp - 1#32).toInt ∧ (s.sp - 1#32).toInt < s.dmemSize ∧ (s.sp - 1#32).toNat ≠ 0) ∧
    (let s := { idle true false with sp := 0 }; ¬ (0 ≤ (s.sp - 1#32).toInt ∧ (s.sp - 1#32).toInt < s.dmemSize)) ∧
    (let s := { idle true false with sp := 7 }; ¬ (0 ≤ (s.sp - 1#32).toInt ∧ (s.sp - 1#32).toInt < s.dmemSize)) := by
  decide

/-- Each clause: in a handler; due and enabled at the very tick; due and masked; enabled and one tick early;
enabled with the schedule exhausted. -/
theorem witness_InterruptCheckDropsTakesOrHolds :
    (idle true true).inInterrupt = true ∧
    ((idle true false).inInterrupt = false ∧ (idle true false).interruptsEnabled = true ∧
      (idle true false).schedule[(idle true false).cursor]? = some ⟨6, 104⟩ ∧ 6 ≤ (idle true false).tick) ∧
    ((idle false false).inInterrupt = false ∧ (idle false false).interruptsEnabled = false) ∧
    (let s := { idle true false with tick := 5 }
     s.inInterrupt = false ∧ ∀ e, s.schedule[s.cursor]? = some e → s.tick < e.tick) ∧
    (let s := { idle true false with cursor := 2 }
     s.inInterrupt = false ∧ ∀ e, s.schedule[s.cursor]? = some e → s.tick < e.tick) := by
  refine ⟨rfl, ⟨rfl, rfl, rfl, by decide⟩, ⟨rfl, rfl⟩, ⟨rfl, ?_⟩, ⟨rfl, ?_⟩⟩
  · intro e h
    cases h
    decide
  · intro e h
    cases h

/-- A handler that has used `r1` and drawn ticks. -/
theorem witness_IretRestoresInterruptedPc :
    ∃ t u : State, (idle true false).dmem.wf ∧ interruptEntry 104#32 (idle true false) = .ok t ∧
      u = { t with r1 := 104, pc := 4, tick := 12, inputLatch := none } ∧
      u.sp = t.sp ∧ u.dmemSize = t.dmemSize ∧ u.readCell t.sp.toNat = t.readCell t.sp.toNat :=
  ⟨_, _, by decide, rfl, rfl, rfl, rfl, rfl⟩

/-- A handler at an instruction that stays in it, and at `iret`. -/
theorem witness_OnlyIretLeavesHandler :
    (∃ t, (idle true true).inInterrupt = true ∧ step (idle true true) = .next t ∧ t.inInterrupt = true) ∧
    (∃ t, ({ idle true true with pc := 4 } : State).inInterrupt = true ∧
      step { idle true true with pc := 4 } = .next t ∧ t.inInterrupt = false) :=
  ⟨⟨_, rfl, rfl, rfl⟩, ⟨_, rfl, rfl, rfl⟩⟩

theorem witness_OnlyStiAndIretEnable :
    (∃ t, (idle false false).interruptsEnabled = false ∧ step { idle false false with pc := 0 } = .next t ∧
      t.interruptsEnabled = true) ∧
    (∃ t, (idle false true).interruptsEnabled = false ∧ step { idle false true with pc := 4 } = .next t ∧
      t.interruptsEnabled = true) :=
  ⟨⟨_, rfl, rfl, rfl⟩, ⟨_, rfl, rfl, rfl⟩⟩

theorem witness_HandlerEnteredOnlyWhenEnabledAndDue :
    ∃ t, (idle true false).inInterrupt = false ∧ step (idle true false) = .next t ∧ t.inInterrupt = true :=
  ⟨_, rfl, rfl, rfl⟩

theorem witness_OnlyHaltHalts :
    ∃ s t : State, s.halted = false ∧ step s = .next t ∧ t.halted = true :=
  ⟨{ start with pc := 0, imem := [0x800000000000#48] }, _, rfl, rfl, rfl⟩

/-- One state without an interrupt due, and one that enters the handler. -/
theorem witness_StepRunsDecodedInstruction :
    (let s := idle false false
     s.halted = false ∧ s.budgetExceeded = false ∧ interruptCheck s = .ok s ∧ fetch s = .ok 0x401000000001#48 ∧
       decode 0x401000000001#48 = .ok (.jmp (.const 1)) ∧
       (let q := { s with tick := 5 }; q.request = none ∧ q.inInterrupt = false ∧ interruptCheck q = .ok q)) ∧
    (∃ s1, (idle true false).halted = false ∧ (idle true false).budgetExceeded = false ∧
      interruptCheck (idle true false) = .ok s1 ∧ fetch s1 = .ok 0x510000000000#48 ∧
      decode 0x510000000000#48 = .ok (.in_ .r1)) :=
  ⟨⟨rfl, rfl, rfl, rfl, rfl, rfl, rfl, rfl⟩, ⟨_, rfl, rfl, rfl, rfl, rfl⟩⟩

/-- Each clause: one tick over the budget; no budget; a push that faults; `pc` one past the program and
one before it. The tick equal to the budget does not exceed it. -/
theorem witness_FaultsComeInCycleOrder :
    (let s := { idle true false with tickBudget := some 5 }
     s.halted = false ∧ s.tickBudget = some 5 ∧ 5 < s.tick) ∧
    ((idle true false).halted = false ∧ (idle true false).tickBudget = none) ∧
    (let s := { idle true false with sp := 0, tickBudget := some 6 }
     s.halted = false ∧ s.budgetExceeded = false ∧ interruptCheck s = .error (.memoryError .data (-1))) ∧
    (let s := { idle false false with pc := 5 }
     s.halted = false ∧ s.budgetExceeded = false ∧ interruptCheck s = .ok s ∧ (s.imem.length : Int) ≤ s.pc.toInt) ∧
    (let s := { idle false false with pc := 0xFFFFFFFF }
     s.halted = false ∧ s.budgetExceeded = false ∧ interruptCheck s = .ok s ∧ s.pc.toInt < 0) :=
  ⟨⟨rfl, rfl, by decide⟩, ⟨rfl, rfl⟩, ⟨rfl, rfl, rfl⟩, ⟨rfl, rfl, rfl, by decide⟩, ⟨rfl, rfl, rfl, by decide⟩⟩

theorem witness_TicksFollowTheTable :
    (∃ t, exec .iret start = .next t) ∧ (∃ s1, interruptCheck (idle true false) = .ok s1) ∧
    (∃ t, (idle true false).halted = false ∧ step (idle true false) = .next t) :=
  ⟨⟨_, rfl⟩, ⟨_, rfl⟩, ⟨_, rfl, rfl⟩⟩

theorem witness_PcFollowsTheTable :
    (∃ t, exec (.jmp (.const 1)) start = .next t) ∧
    (∃ s1, interruptCheck (idle true true) = .ok s1 ∧ (idle true true).entersHandler = false) :=
  ⟨⟨_, rfl⟩, ⟨_, rfl, rfl⟩⟩

/-- Each instruction that can fault, on both sides of its condition. -/
theorem witness_InstructionsFaultExactlyAsListed :
    raises (.div .r1 .r1 (.const 0)) start = some .arithError ∧ raises (.div .r1 .r1 (.const 1)) start = none ∧
    raises (.ld .r1 (.const 8)) start = some (.memoryError .data 8) ∧ raises (.ld .r1 (.const 7)) start = none ∧
    raises (.in_ .r1) start = some .ioError ∧ raises .iret start = none := by decide

/-- The invariant holds of a state with a memory, a program and a schedule. -/
theorem idle_inv (enabled inHandler : Bool) : Inv (idle enabled inHandler) where
  memoryCanonical := by decide +revert
  memoryInside := by decide +revert
  memorySize := by decide +revert
  programSize := by decide +revert
  cursorInside := by decide +revert
  scheduleSorted := by decide +revert
  scheduleChars := by decide +revert
  latchChar := by intro c h; cases h
  tickBounds := by decide +revert

theorem witness_StepKeepsTheInvariant : ∃ t, Inv (idle true false) ∧ step (idle true false) = .next t :=
  ⟨_, idle_inv true false, rfl⟩

/-- A load with the smallest data memory, two entries at one tick, and two instructions. -/
def echoLoad : Except LoadRefusal State :=
  load ⟨[{ opcode := .in_, out := some .r1 }, { opcode := .halt }], [1]⟩
    { dmemSize := 1, schedule := [(0, 0x10FFFF), (0, 65)] }

theorem witness_LoadMeetsTheInvariant : ∃ s, echoLoad = .ok s := ⟨_, rfl⟩
/-- The first and the last record and schedule entry. -/
theorem witness_LoadGivesTheResetState :
    ∃ (a : Artifact) (h : Setup) (s : State), load a h = .ok s ∧
      a.code[0]? = some { opcode := .halt } ∧ a.code[a.code.length - 1]? = some { opcode := .halt } ∧
      h.schedule[0]? = some (0, 0x10FFFF) ∧ h.schedule[h.schedule.length - 1]? = some (3, 65) ∧
      s.schedule = [⟨0, 0x10FFFF#32⟩, ⟨3, 65#32⟩] ∧ s.r3 = 5#32 ∧ s.tickBudget = some 9 :=
  ⟨⟨[{ opcode := .halt }], [1]⟩,
    { dmemSize := 1, schedule := [(0, 0x10FFFF), (3, 65)], tickBudget := some 9, r3 := 5 }, _,
    rfl, rfl, rfl, rfl, rfl, rfl, rfl, rfl⟩
theorem witness_LoadedProgramsNeverMeetIllegalWords :
    (∃ s, echoLoad = .ok s) ∧
    (∃ t, ProgramLegal (idle true false) ∧ step (idle true false) = .next t) := by
  have h : echoProgram.all legalWord = true := by rfl
  exact ⟨⟨_, rfl⟩, ⟨_, List.all_eq_true.mp h, rfl⟩⟩

theorem witness_LoadedInputsNeverChange : ∃ t, step (idle true false) = .next t := ⟨_, rfl⟩

/-- A cycle that does not extend the output buffer, and one that does. -/
theorem witness_OutputAndCountersOnlyGrow :
    (∃ t, step (idle true false) = .next t ∧ t.outputBuffer = (idle true false).outputBuffer) ∧
    (∃ t, step { idle true true with pc := 3 } = .next t ∧ t.outputBuffer ≠ (idle true true).outputBuffer) :=
  ⟨⟨_, rfl, rfl⟩, ⟨_, rfl, by decide⟩⟩

theorem witness_ZeroFlagIsNeverRead :
    start.eraseFlag = ({ start with zeroFlag := true, freeCount := 7 } : State).eraseFlag ∧
    start ≠ { start with zeroFlag := true, freeCount := 7 } := ⟨rfl, by decide⟩
theorem witness_InputInsideHandlerChangesNothing : (idle false true).inInterrupt = true := by decide
theorem witness_InstructionsIgnoreInInterrupt :
    (∃ t, exec (.jmp (.const 1)) (idle true true) = .next t) ∧ (∃ t, exec .iret (idle true true) = .next t) :=
  ⟨⟨_, rfl⟩, ⟨_, rfl⟩⟩

theorem witness_LoadRefusesExactlyBadInputs : (∃ s, echoLoad = .ok s) ∧
    load ⟨[], [0]⟩ { dmemSize := 2147483649 } = .error .badDataMemorySize := by
  refine ⟨⟨_, rfl⟩, ?_⟩
  rfl

theorem witness_MicroSequencesRefineInstructions :
    (Instr.cmp .r1 .r2 (.const 1)).opcode = .cmp := rfl

end Sys2Proof.Tests
end

section
/-! PROOF of O40. `Inv` bounds `tick` by `6 * instrCounter`, a bound that is broken inside a cycle: the interrupt
entry adds its 4 ticks before the cycle is counted. The invariant carried through a cycle is therefore `Inv` with
`slack` ticks to spare, 0 between cycles and 4 after the interrupt check (R107, R195). Each operation on the
state has one rule about it; the check and the instructions are chains of these rules. -/

namespace Sys2Proof.Machine

/-- Forget `tick` and `instr_counter`. -/
def State.eraseCounters (s : State) : State := { s with tick := 0, instrCounter := 0 }

/-- `Inv`, but for a `tick` that may be up to `slack` ticks ahead of what the completed cycles can cost. -/
structure InvWithin (slack : Nat) (s : State) : Prop where
  data : Inv s.eraseCounters
  least : s.instrCounter ≤ s.tick
  most : s.tick ≤ 6 * s.instrCounter + slack

theorem inv_iff_invWithin_zero {s : State} : Inv s ↔ InvWithin 0 s where
  mp h := ⟨{ h with tickBounds := ⟨le_rfl, le_rfl⟩ }, h.tickBounds.1, h.tickBounds.2⟩
  mpr h := { h.data with tickBounds := ⟨h.least, h.most⟩ }

namespace InvWithin

variable {slack : Nat} {s : State} (h : InvWithin slack s)
include h

theorem mono {slack' : Nat} (hle : slack ≤ slack') : InvWithin slack' s :=
  ⟨h.data, h.least, h.most.trans (Nat.add_le_add_left hle _)⟩

/-! ### Operations on state that `Inv` does not speak of -/

theorem writeReg (r : Reg) (v : Word) : InvWithin slack (s.writeReg r v) := by
  cases r <;> exact ⟨{ h.data with }, h.least, h.most⟩

theorem setZeroFlag (b : Bool) : InvWithin slack (s.setZeroFlag b) := ⟨{ h.data with }, h.least, h.most⟩

theorem freeFlag : InvWithin slack s.freeFlag := ⟨{ h.data with }, h.least, h.most⟩

theorem setPc (v : Word) : InvWithin slack (s.setPc v) := ⟨{ h.data with }, h.least, h.most⟩

theorem setInterrupts (enabled inHandler : Bool) : InvWithin slack (s.setInterrupts enabled inHandler) :=
  ⟨{ h.data with }, h.least, h.most⟩

theorem setEnabled (enabled : Bool) : InvWithin slack (s.setEnabled enabled) := ⟨{ h.data with }, h.least, h.most⟩

theorem setHalted : InvWithin slack s.setHalted := ⟨{ h.data with }, h.least, h.most⟩

theorem emit (v : Word) : InvWithin slack (s.emit v) := ⟨{ h.data with }, h.least, h.most⟩

/-! ### Operations on state that `Inv` speaks of -/

theorem setLatch {c : Option Word} (hc : ∀ w, c = some w → w.toNat ≤ Config.maxCodepoint) :
    InvWithin slack (s.setLatch c) :=
  ⟨{ h.data with latchChar := hc }, h.least, h.most⟩

theorem setCursor {k : Nat} (hk : k ≤ s.schedule.length) : InvWithin slack (s.setCursor k) :=
  ⟨{ h.data with cursorInside := hk }, h.least, h.most⟩

theorem writeCell {a : Nat} (v : Word) (ha : a < s.dmemSize) : InvWithin slack (s.writeCell a v) := by
  have hinside : ∀ p ∈ Memory.write s.dmem a v, p.1 < s.dmemSize := by
    intro p hp
    rcases Memory.mem_write hp with hold | ⟨rfl, -⟩
    · exact h.data.memoryInside p hold
    · exact ha
  exact ⟨{ h.data with
    memoryCanonical := Memory.write_wf h.data.memoryCanonical a v
    memoryInside := hinside }, h.least, h.most⟩

theorem addTicks (n : Nat) : InvWithin (slack + n) (s.addTicks n) where
  data := { h.data with }
  least := h.least.trans (Nat.le_add_right _ _)
  most := (Nat.add_le_add_right h.most n).trans_eq (Nat.add_assoc _ _ _)

omit h in
/-- The end of a cycle uses up the slack: 4 ticks of the interrupt entry and 2 of the instruction are the 6 that
`Inv` allows a cycle. -/
theorem retire (h : InvWithin 4 s) (next : Word) {cost : Nat} (hpos : 1 ≤ cost) (hle : cost ≤ 2) :
    InvWithin 0 (s.retire next cost) where
  data := { h.data with }
  least := Nat.add_le_add h.least hpos
  most := by
    have := h.most
    simp only [State.retire_tick, State.retire_instrCounter]
    omega

end InvWithin

/-! ### The interrupt check -/

/-- The entries the device drops are entries of the schedule (R193). -/
theorem State.cursor_add_dueCount_le {s : State} (h : s.cursor ≤ s.schedule.length) :
    s.cursor + s.dueCount ≤ s.schedule.length := by
  have hdue : s.dueCount ≤ (s.schedule.drop s.cursor).length := (List.takeWhile_sublist _).length_le
  rw [List.length_drop] at hdue
  omega

theorem interruptEntry_invWithin {e : InputEntry} {s t : State} (h : InvWithin 0 s) (hreq : s.request = some e)
    (ht : interruptEntry e.char s = .ok t) : InvWithin 4 t := by
  obtain ⟨hget, -⟩ := State.request_eq_some.mp hreq
  obtain ⟨hcursor, -⟩ := List.getElem?_eq_some_iff.mp hget
  have hchar : e.char.toNat ≤ Config.maxCodepoint := h.data.scheduleChars e (List.mem_of_getElem? hget)
  obtain ⟨hvalid, rfl⟩ := interruptEntry_ok ht
  have hpushed := ((h.setCursor hcursor).writeReg .sp (s.sp - 1#32)).writeCell s.pc
    (by simpa using (State.validAddr_toNat hvalid).2)
  exact (((hpushed.setPc _).setInterrupts false true).setLatch (by simpa using hchar)).freeFlag.addTicks 4

theorem interruptCheck_invWithin {s t : State} (h : InvWithin 0 s) (ht : interruptCheck s = .ok t) :
    InvWithin 4 t := by
  rcases interruptCheck_ok ht with ⟨-, rfl⟩ | ⟨-, -, rfl⟩ | ⟨-, -, e, hreq, hentry⟩
  · exact (h.setCursor (State.cursor_add_dueCount_le h.data.cursorInside)).mono (by decide)
  · exact h.mono (by decide)
  · exact interruptEntry_invWithin h hreq hentry

/-! ### The instructions -/

section
variable {s t : State} (h : InvWithin 4 s)
include h

theorem arith_invWithin (op : AluOp) {o a : Reg} {v : Operand} (ht : arith op o a v s = .next t) :
    InvWithin 0 t := by
  obtain ⟨x, -, rfl⟩ := arith_next ht
  exact ((h.writeReg o x).setZeroFlag _).retire _ (by decide) (by decide)

theorem branch_invWithin (taken : Bool) (v : Operand) : InvWithin 0 (branch taken v s) := by
  cases taken
  · exact h.freeFlag.retire (nextPc s.pc) (by decide) (by decide)
  · exact h.freeFlag.retire (s.val v) (by decide) (by decide)

theorem exec_invWithin {i : Instr} (ht : exec i s = .next t) : InvWithin 0 t := by
  cases i with
  | add o a v => exact arith_invWithin h .add ht
  | sub o a v => exact arith_invWithin h .sub ht
  | div o a v => exact arith_invWithin h .div ht
  | mod o a v => exact arith_invWithin h .mod ht
  | mul o a v => exact arith_invWithin h .mul ht
  | cmp o a v => exact arith_invWithin h .cmp ht
  | je a v =>
    obtain rfl := Host.Outcome.next.inj ht
    exact branch_invWithin h _ v
  | jne a v =>
    obtain rfl := Host.Outcome.next.inj ht
    exact branch_invWithin h _ v
  | jmp v =>
    obtain rfl := Host.Outcome.next.inj ht
    exact h.freeFlag.retire _ (by decide) (by decide)
  | out v =>
    obtain rfl := Host.Outcome.next.inj ht
    exact (h.emit _).freeFlag.retire _ (by decide) (by decide)
  | in_ o =>
    obtain ⟨c, -, rfl⟩ := execIn_next ht
    exact ((h.writeReg o c).setLatch (by simp)).freeFlag.retire _ (by decide) (by decide)
  | ld o v =>
    obtain ⟨-, rfl⟩ := execLd_next ht
    exact (h.writeReg o _).freeFlag.retire _ (by decide) (by decide)
  | sv a v =>
    obtain ⟨hvalid, rfl⟩ := execSv_next ht
    exact (h.writeCell _ (State.validAddr_toNat hvalid).2).freeFlag.retire _ (by decide) (by decide)
  | iret =>
    obtain ⟨-, rfl⟩ := execIret_next ht
    exact ((h.writeReg .sp _).setInterrupts true false).freeFlag.retire _ (by decide) (by decide)
  | sti =>
    obtain rfl := Host.Outcome.next.inj ht
    exact (h.setEnabled true).freeFlag.retire _ (by decide) (by decide)
  | cli =>
    obtain rfl := Host.Outcome.next.inj ht
    exact (h.setEnabled false).freeFlag.retire _ (by decide) (by decide)
  | halt =>
    obtain rfl := Host.Outcome.next.inj ht
    exact h.setHalted.freeFlag.retire _ (by decide) (by decide)

end

/-- Settles O40: a halted machine stays as it is; a cycle is an interrupt check, which leaves at most 4 ticks of
slack, and an instruction, which uses them up. -/
theorem stepKeepsTheInvariant : Obligations.StepKeepsTheInvariant := by
  intro s t hs ht
  rcases step_next ht with ⟨-, rfl⟩ | ⟨-, i, s1, hbegin, hexec⟩
  · exact hs
  · obtain ⟨-, hcheck, -⟩ := beginCycle_ok hbegin
    have hmid : InvWithin 4 s1 := interruptCheck_invWithin (inv_iff_invWithin_zero.mp hs) hcheck
    exact inv_iff_invWithin_zero.mpr (exec_invWithin hmid hexec)

end Sys2Proof.Machine
end

section
/-! PROOF of O24, O41 and O48: the register file, and the state right after reset. -/

namespace Sys2Proof.Machine

/-! ### The register file -/

/-- The write has the shape `WritesReg` names, `r0` included. -/
theorem State.writesReg_writeReg (s : State) (r : Reg) (v : Word) : WritesReg s (s.writeReg r v) r v :=
  ⟨s.readReg_writeReg_self r v, fun q hq => s.readReg_writeReg_of_ne r q v hq⟩

/-- A register write is an update of the five register fields (R22): each takes what it holds afterwards. -/
theorem State.writeReg_eq_update (s : State) (r : Reg) (v : Word) :
    s.writeReg r v = { s with
      r1 := (s.writeReg r v).r1, r2 := (s.writeReg r v).r2, r3 := (s.writeReg r v).r3,
      r4 := (s.writeReg r v).r4, sp := (s.writeReg r v).sp } := by
  cases r <;> rfl

/-- Settles O24. -/
theorem registerFileReadsBackWrites : Obligations.RegisterFileReadsBackWrites := by
  intro s v
  refine ⟨s.readReg_r0, rfl, fun r _ => ⟨s.writesReg_writeReg r v, ?_⟩⟩
  exact ⟨_, _, _, _, _, s.writeReg_eq_update r v⟩

/-! ### Reset -/

/-- Every cell of the reset memory reads 0: none is listed (R52). -/
theorem State.readCell_reset (k : Nat) : State.reset.readCell k = 0#32 := rfl

/-- Settles O41: nothing is listed, loaded, scheduled, latched or counted, so only the bounds on `DMEM_SIZE`
say something of the reset state. -/
theorem resetMeetsTheInvariant : Obligations.ResetMeetsTheInvariant where
  memoryCanonical := ⟨.nil, fun _ hp => nomatch hp⟩
  memoryInside _ hp := nomatch hp
  memorySize := by decide
  programSize := Nat.zero_le _
  cursorInside := le_rfl
  scheduleSorted := .nil
  scheduleChars _ he := nomatch he
  latchChar _ hc := nomatch hc
  tickBounds := ⟨le_rfl, le_rfl⟩

/-- Settles O48: each row of R40 is a field of `State.reset`; the row of `sp` is the one that computes. -/
theorem resetHoldsStatedValues : Obligations.ResetHoldsStatedValues := by
  have hsp : (State.reset.sp.toNat : Int) = State.reset.dmemSize - 1 := by decide
  exact ⟨State.reset.readReg_r0, rfl, rfl, rfl, rfl, rfl, rfl, rfl, rfl, rfl, hsp, State.readCell_reset, rfl⟩

end Sys2Proof.Machine
end

section
/-! PROOF of O31 to O34 and O44. What a cycle does to the modes, the cursor, the output buffer and the counters is
said once for the instructions (`exec_control`), as a table in the manner of R106 and R107, and once for the
interrupt check (`interruptCheck_keeps`, `interruptCheck_modes`); each statement reads its fields off the two. -/

namespace Sys2Proof.Machine

/-! ### The table of an instruction's effect on modes and output -/

/-- R28, R170 to R172: `interrupts_enabled` after an instruction executed in state `s`. -/
@[simp] def enabledAfter (i : Instr) (s : State) : Bool :=
  match i with
  | .sti | .iret => true
  | .cli => false
  | _ => s.interruptsEnabled

/-- R29, R170: `in_interrupt` after an instruction executed in state `s`. -/
@[simp] def inInterruptAfter (i : Instr) (s : State) : Bool :=
  match i with
  | .iret => false
  | _ => s.inInterrupt

/-- R32, R173: `halted` after an instruction executed in state `s`. -/
@[simp] def haltedAfter (i : Instr) (s : State) : Bool :=
  match i with
  | .halt => true
  | _ => s.halted

/-- R35, R161: what an instruction executed in state `s` appends to the output buffer. -/
@[simp] def emitted (i : Instr) (s : State) : List OutChar :=
  match i with
  | .out v => [(s.val v).extractLsb' 0 21]
  | _ => []

theorem eq_sti_or_iret_of_enabledAfter {i : Instr} {s : State} (hs : s.interruptsEnabled = false)
    (h : enabledAfter i s = true) : i = .sti ∨ i = .iret := by
  unfold enabledAfter at h
  split at h <;> simp_all

theorem inInterruptAfter_of_ne_iret {i : Instr} (s : State) (hi : i ≠ .iret) :
    inInterruptAfter i s = s.inInterrupt := by
  unfold inInterruptAfter
  split <;> simp_all

theorem inInterrupt_of_inInterruptAfter {i : Instr} {s : State} (h : inInterruptAfter i s = true) :
    s.inInterrupt = true := by
  unfold inInterruptAfter at h
  split at h <;> simp_all

theorem haltedAfter_iff_of_running {i : Instr} {s : State} (hs : s.halted = false) :
    haltedAfter i s = true ↔ i = .halt := by
  unfold haltedAfter
  split <;> simp_all

theorem exists_eq_out_of_emitted_ne_nil {i : Instr} {s : State} (h : emitted i s ≠ []) : ∃ v, i = .out v := by
  unfold emitted at h
  split at h <;> simp_all

/-! ### The instructions -/

/-- From `s` to `t` an instruction left these modes, appended `output` and completed at this cost; the cursor
belongs to the interrupt check and no instruction moves it. -/
structure ControlEffect (enabled inInterrupt halted : Bool) (output : List OutChar) (cost : Nat) (s t : State) :
    Prop where
  enabled : t.interruptsEnabled = enabled
  inInterrupt : t.inInterrupt = inInterrupt
  halted : t.halted = halted
  output : t.outputBuffer = s.outputBuffer ++ output
  cursor : t.cursor = s.cursor
  tick : t.tick = s.tick + cost
  instrCounter : t.instrCounter = s.instrCounter + 1

theorem arith_control {op : AluOp} {o a : Reg} {v : Operand} {s t : State} (ht : arith op o a v s = .next t) :
    ControlEffect s.interruptsEnabled s.inInterrupt s.halted [] 1 s t := by
  obtain ⟨x, -, rfl⟩ := arith_next ht
  constructor <;> simp

theorem branch_control (taken : Bool) (v : Operand) (s : State) :
    ControlEffect s.interruptsEnabled s.inInterrupt s.halted [] (if taken then 2 else 1) s (branch taken v s) := by
  cases taken <;> constructor <;> simp [branch]

/-- Every instruction that completes follows the table. -/
theorem exec_control {i : Instr} {s t : State} (ht : exec i s = .next t) :
    ControlEffect (enabledAfter i s) (inInterruptAfter i s) (haltedAfter i s) (emitted i s) (tickCost i s) s t := by
  cases i with
  | add o a v => exact arith_control (op := .add) ht
  | sub o a v => exact arith_control (op := .sub) ht
  | div o a v => exact arith_control (op := .div) ht
  | mod o a v => exact arith_control (op := .mod) ht
  | mul o a v => exact arith_control (op := .mul) ht
  | cmp o a v => exact arith_control (op := .cmp) ht
  | je a v =>
    obtain rfl := Host.Outcome.next.inj ht
    simpa [tickCost, zeroOf_eq] using branch_control (zeroOf (s.readReg a)) v s
  | jne a v =>
    obtain rfl := Host.Outcome.next.inj ht
    simpa [tickCost, zeroOf_eq] using branch_control (!zeroOf (s.readReg a)) v s
  | jmp v =>
    obtain rfl := Host.Outcome.next.inj ht
    constructor <;> simp [tickCost]
  | out v =>
    obtain rfl := Host.Outcome.next.inj ht
    constructor <;> simp [tickCost]
  | in_ o =>
    obtain ⟨c, -, rfl⟩ := execIn_next ht
    constructor <;> simp [tickCost]
  | ld o v =>
    obtain ⟨-, rfl⟩ := execLd_next ht
    constructor <;> simp [tickCost]
  | sv a v =>
    obtain ⟨-, rfl⟩ := execSv_next ht
    constructor <;> simp [tickCost]
  | iret =>
    obtain ⟨-, rfl⟩ := execIret_next ht
    constructor <;> simp [tickCost]
  | sti =>
    obtain rfl := Host.Outcome.next.inj ht
    constructor <;> simp [tickCost]
  | cli =>
    obtain rfl := Host.Outcome.next.inj ht
    constructor <;> simp [tickCost]
  | halt =>
    obtain rfl := Host.Outcome.next.inj ht
    constructor <;> simp [tickCost]

/-! ### The interrupt check -/

/-- The check writes neither `halted`, the output buffer nor the cycle count, and only advances cursor and tick. -/
theorem interruptCheck_keeps {s t : State} (ht : interruptCheck s = .ok t) :
    t.halted = s.halted ∧ t.outputBuffer = s.outputBuffer ∧ t.instrCounter = s.instrCounter ∧
      s.tick ≤ t.tick ∧ s.cursor ≤ t.cursor := by
  rcases interruptCheck_ok ht with ⟨-, rfl⟩ | ⟨-, -, rfl⟩ | ⟨-, -, e, -, hentry⟩
  · simp
  · simp
  · obtain ⟨-, rfl⟩ := interruptEntry_ok hentry
    simp

/-- R192, R195: the check leaves both interrupt flags as they are, or takes the interrupt: outside a handler, with
interrupts enabled and an entry due, which it consumes. -/
theorem interruptCheck_modes {s t : State} (ht : interruptCheck s = .ok t) :
    (t.inInterrupt = s.inInterrupt ∧ t.interruptsEnabled = s.interruptsEnabled) ∨
    (s.inInterrupt = false ∧ s.interruptsEnabled = true ∧
      (∃ e, s.schedule[s.cursor]? = some e ∧ e.tick ≤ s.tick) ∧
      t.inInterrupt = true ∧ t.interruptsEnabled = false ∧ t.cursor = s.cursor + 1) := by
  rcases interruptCheck_ok ht with ⟨-, rfl⟩ | ⟨-, -, rfl⟩ | ⟨hout, hon, e, hreq, hentry⟩
  · exact .inl ⟨rfl, rfl⟩
  · exact .inl ⟨rfl, rfl⟩
  · obtain ⟨-, rfl⟩ := interruptEntry_ok hentry
    exact .inr ⟨hout, hon, ⟨e, State.request_eq_some.mp hreq⟩, by simp⟩

/-! ### The cycle -/

/-- Settles O31: the check does not leave a handler, and the table names `iret` as the only instruction that does. -/
theorem onlyIretLeavesHandler : Obligations.OnlyIretLeavesHandler := by
  intro s t hin ht
  rcases step_next ht with ⟨-, rfl⟩ | ⟨-, i, s1, hbegin, hexec⟩
  · exact .inl hin
  · obtain ⟨-, hcheck, -⟩ := beginCycle_ok hbegin
    have hmid : s1.inInterrupt = true := by
      rcases interruptCheck_modes hcheck with ⟨hkeep, -⟩ | ⟨-, -, -, henter, -, -⟩
      · rw [hkeep, hin]
      · exact henter
    by_cases hi : i = .iret
    · exact .inr ⟨s1, hi ▸ hbegin⟩
    · exact .inl <| (exec_control hexec).inInterrupt.trans <| (inInterruptAfter_of_ne_iret s1 hi).trans hmid

/-- Settles O32: the check enables nothing, so the enable comes from the table's row of the instruction. -/
theorem onlyStiAndIretEnable : Obligations.OnlyStiAndIretEnable := by
  intro s t hoff ht hon
  rcases step_next ht with ⟨-, rfl⟩ | ⟨-, i, s1, hbegin, hexec⟩
  · simp [hoff] at hon
  · obtain ⟨-, hcheck, -⟩ := beginCycle_ok hbegin
    have hmid : s1.interruptsEnabled = false := by
      rcases interruptCheck_modes hcheck with ⟨-, hkeep⟩ | ⟨-, -, -, -, hmask, -⟩
      · rw [hkeep, hoff]
      · exact hmask
    have hrow : enabledAfter i s1 = true := (exec_control hexec).enabled.symm.trans hon
    rcases eq_sti_or_iret_of_enabledAfter hmid hrow with rfl | rfl
    · exact ⟨s1, .inl hbegin⟩
    · exact ⟨s1, .inr hbegin⟩

/-- Settles O33: no instruction enters a handler, so the check did, and no instruction moves the cursor after it. -/
theorem handlerEnteredOnlyWhenEnabledAndDue : Obligations.HandlerEnteredOnlyWhenEnabledAndDue := by
  intro s t hout ht hin
  rcases step_next ht with ⟨-, rfl⟩ | ⟨-, i, s1, hbegin, hexec⟩
  · simp [hout] at hin
  · obtain ⟨-, hcheck, -⟩ := beginCycle_ok hbegin
    have heffect := exec_control hexec
    have hmid : s1.inInterrupt = true := inInterrupt_of_inInterruptAfter (heffect.inInterrupt.symm.trans hin)
    rcases interruptCheck_modes hcheck with ⟨hkeep, -⟩ | ⟨-, hon, hdue, -, -, hcursor⟩
    · simp [hkeep, hout] at hmid
    · exact ⟨hon, hdue, heffect.cursor.trans hcursor⟩

/-- Settles O34: the check does not halt, and from a running state the table halts in the row of `halt` alone. -/
theorem onlyHaltHalts : Obligations.OnlyHaltHalts := by
  intro s t hrun ht
  rcases step_next ht with ⟨hhalted, -⟩ | ⟨-, i, s1, hbegin, hexec⟩
  · simp [hrun] at hhalted
  · obtain ⟨-, hcheck, -⟩ := beginCycle_ok hbegin
    obtain ⟨hkeep, -⟩ := interruptCheck_keeps hcheck
    rw [(exec_control hexec).halted, haltedAfter_iff_of_running (hkeep.trans hrun)]
    simp [hbegin]

/-- Settles O44: the check appends nothing, and cursor and counters grow through the check and the instruction. -/
theorem outputAndCountersOnlyGrow : Obligations.OutputAndCountersOnlyGrow := by
  intro s t ht
  rcases step_next ht with ⟨-, rfl⟩ | ⟨-, i, s1, hbegin, hexec⟩
  · simp
  · obtain ⟨-, hcheck, -⟩ := beginCycle_ok hbegin
    obtain ⟨-, houtput, hcount, htick, hcursor⟩ := interruptCheck_keeps hcheck
    have heffect := exec_control hexec
    have happend : t.outputBuffer = s.outputBuffer ++ emitted i s1 := houtput ▸ heffect.output
    refine ⟨⟨_, happend.symm⟩, heffect.cursor ▸ hcursor, ?_, ?_, fun hne => ?_⟩
    · exact heffect.tick ▸ htick.trans (Nat.le_add_right _ _)
    · exact heffect.instrCounter ▸ hcount ▸ Nat.le_succ _
    · obtain ⟨v, rfl⟩ := exists_eq_out_of_emitted_ne_nil (i := i) (s := s1) (by simpa [happend] using hne)
      exact ⟨v, s1, hbegin⟩

end Sys2Proof.Machine
end

section
/-! PROOF of O45. Forgetting `zero_flag` commutes with every operation a cycle is made of: no operation reads it
(the reads below do not change under `eraseFlag`), and what writes it is forgotten again. So a state steps like
itself with the flag erased, and two states that agree up to the flag step like one and the same state. -/

namespace Sys2Proof.Machine

/-! ### Outcomes that agree -/

namespace AgreeUpTo

variable {erase : State → State} {o p q : Host.Outcome State Fault Refusal}

theorem symm (h : AgreeUpTo erase o p) : AgreeUpTo erase p o := by
  cases o <;> cases p <;> simp_all [AgreeUpTo]

theorem trans (hop : AgreeUpTo erase o p) (hpq : AgreeUpTo erase p q) : AgreeUpTo erase o q := by
  cases o <;> cases p <;> cases q <;> simp_all [AgreeUpTo]

end AgreeUpTo

/-- Two results that a map cannot tell apart: the same error, or values it takes to the same value. -/
theorem except_cases_of_map_eq {ε α β : Type} {f : α → β} {x y : Except ε α} (h : x.map f = y.map f) :
    (∃ e, x = .error e ∧ y = .error e) ∨ ∃ a b, x = .ok a ∧ y = .ok b ∧ f a = f b := by
  cases x <;> cases y <;> simp_all [Except.map]

/-! ### The operations under `eraseFlag` -/

section
variable (s : State)

@[simp] theorem State.eraseFlag_eraseFlag : s.eraseFlag.eraseFlag = s.eraseFlag := rfl
@[simp] theorem State.readReg_eraseFlag (r : Reg) : s.eraseFlag.readReg r = s.readReg r := by
  cases r <;> rfl
@[simp] theorem State.val_eraseFlag (v : Operand) : s.eraseFlag.val v = s.val v :=
  State.val_congr s.readReg_eraseFlag v
@[simp] theorem State.eraseFlag_writeReg (r : Reg) (v : Word) :
    (s.writeReg r v).eraseFlag = s.eraseFlag.writeReg r v := by
  cases r <;> rfl
@[simp] theorem State.eraseFlag_setZeroFlag (b : Bool) : (s.setZeroFlag b).eraseFlag = s.eraseFlag := rfl
@[simp] theorem State.eraseFlag_freeFlag : s.freeFlag.eraseFlag = s.eraseFlag := rfl
@[simp] theorem State.eraseFlag_retire (next : Word) (cost : Nat) :
    (s.retire next cost).eraseFlag = s.eraseFlag.retire next cost := rfl
@[simp] theorem State.eraseFlag_emit (v : Word) : (s.emit v).eraseFlag = s.eraseFlag.emit v := rfl
@[simp] theorem State.eraseFlag_setInterrupts (enabled inHandler : Bool) :
    (s.setInterrupts enabled inHandler).eraseFlag = s.eraseFlag.setInterrupts enabled inHandler := rfl
@[simp] theorem State.eraseFlag_setLatch (c : Option Word) :
    (s.setLatch c).eraseFlag = s.eraseFlag.setLatch c := rfl

@[simp] theorem State.sp_eraseFlag : s.eraseFlag.sp = s.sp := rfl
@[simp] theorem State.pc_eraseFlag : s.eraseFlag.pc = s.pc := rfl
@[simp] theorem State.inputLatch_eraseFlag : s.eraseFlag.inputLatch = s.inputLatch := rfl

@[simp] theorem memRead_eraseFlag (a : Word) : memRead s.eraseFlag a = memRead s a := rfl

@[simp] theorem memWrite_eraseFlag (a v : Word) :
    memWrite s.eraseFlag a v = (memWrite s a v).map State.eraseFlag := by
  have hvalid : s.eraseFlag.validAddr a = s.validAddr a := State.validAddr_congr rfl a
  unfold memWrite
  rw [hvalid]
  split <;> rfl

@[simp] theorem fetchDecode_eraseFlag : fetchDecode s.eraseFlag = fetchDecode s := rfl

end

/-! ### The interrupt -/

theorem interruptReturn_eraseFlag (s : State) :
    interruptReturn s.eraseFlag = (interruptReturn s).map (Prod.map id State.eraseFlag) := by
  unfold interruptReturn
  rw [State.sp_eraseFlag, memRead_eraseFlag]
  split <;> rfl

/-- The entry's push and vector read are those of the state with the flag erased; what it leaves in the flag is
forgotten. -/
theorem interruptEntry_eraseFlag (c : Word) (s : State) :
    (interruptEntry c s.eraseFlag).map State.eraseFlag = (interruptEntry c s).map State.eraseFlag := by
  have hpush (a : Word) : (s.eraseFlag.setCursor (s.eraseFlag.cursor + 1)).writeReg .sp a =
      ((s.setCursor (s.cursor + 1)).writeReg .sp a).eraseFlag := rfl
  unfold interruptEntry
  simp only [hpush, State.sp_eraseFlag, State.pc_eraseFlag, memWrite_eraseFlag]
  generalize (s.setCursor (s.cursor + 1)).writeReg .sp (wrap32 (s.sp.toInt - 1)) = s1
  cases memWrite s1 s1.sp s.pc with
  | error f => rfl
  | ok s2 =>
    simp only [Except.map, memRead_eraseFlag]
    cases memRead s2 0#32 <;> rfl

theorem interruptCheck_eraseFlag (s : State) :
    (interruptCheck s.eraseFlag).map State.eraseFlag = (interruptCheck s).map State.eraseFlag := by
  have hin : s.eraseFlag.inInterrupt = s.inInterrupt := rfl
  have hon : s.eraseFlag.interruptsEnabled = s.interruptsEnabled := rfl
  have hreq : s.eraseFlag.request = s.request := rfl
  unfold interruptCheck
  rw [hin, hon, hreq]
  split
  · rfl
  · split
    · split
      · exact interruptEntry_eraseFlag _ s
      · rfl
    · rfl

/-! ### The instructions -/

theorem arith_eraseFlag (op : AluOp) (o a : Reg) (v : Operand) (s : State) :
    AgreeUpTo State.eraseFlag (arith op o a v s) (arith op o a v s.eraseFlag) := by
  unfold arith
  rw [State.readReg_eraseFlag, State.val_eraseFlag]
  split
  · rfl
  · simp [AgreeUpTo]

theorem branch_eraseFlag (taken : Bool) (v : Operand) (s : State) :
    (branch taken v s).eraseFlag = (branch taken v s.eraseFlag).eraseFlag := by
  cases taken <;> simp [branch]

theorem exec_eraseFlag (i : Instr) (s : State) :
    AgreeUpTo State.eraseFlag (exec i s) (exec i s.eraseFlag) := by
  cases i with
  | add o a v => exact arith_eraseFlag .add o a v s
  | sub o a v => exact arith_eraseFlag .sub o a v s
  | div o a v => exact arith_eraseFlag .div o a v s
  | mod o a v => exact arith_eraseFlag .mod o a v s
  | mul o a v => exact arith_eraseFlag .mul o a v s
  | cmp o a v => exact arith_eraseFlag .cmp o a v s
  | je a v => simpa [exec, execJe, AgreeUpTo] using branch_eraseFlag _ v s
  | jne a v => simpa [exec, execJne, AgreeUpTo] using branch_eraseFlag _ v s
  | jmp v => simp [exec, execJmp, AgreeUpTo]
  | out v => simp [exec, execOut, AgreeUpTo]
  | in_ o =>
    simp only [exec, execIn, State.inputLatch_eraseFlag]
    cases s.inputLatch <;> simp [AgreeUpTo]
  | ld o v =>
    simp only [exec, execLd, State.val_eraseFlag, memRead_eraseFlag]
    cases memRead s (s.val v) <;> simp [AgreeUpTo]
  | sv a v =>
    simp only [exec, execSv, State.val_eraseFlag, State.readReg_eraseFlag, memWrite_eraseFlag]
    cases memWrite s (s.val v) (s.readReg a) <;> simp [AgreeUpTo, Except.map]
  | iret =>
    simp only [exec, execIret, interruptReturn_eraseFlag]
    cases interruptReturn s <;> simp [AgreeUpTo, Except.map]
  | sti => rfl
  | cli => rfl
  | halt => rfl

/-- States that differ in the flag alone run every instruction alike. -/
theorem exec_agree_of_eraseFlag_eq (i : Instr) {s t : State} (h : s.eraseFlag = t.eraseFlag) :
    AgreeUpTo State.eraseFlag (exec i s) (exec i t) :=
  (exec_eraseFlag i s).trans (h ▸ (exec_eraseFlag i t).symm)

/-! ### The cycle -/

theorem beginCycle_eraseFlag (s : State) :
    (beginCycle s.eraseFlag).map (Prod.map id State.eraseFlag) =
      (beginCycle s).map (Prod.map id State.eraseFlag) := by
  have hbudget : s.eraseFlag.budgetExceeded = s.budgetExceeded := rfl
  unfold beginCycle
  rw [hbudget]
  split
  · rfl
  · rcases except_cases_of_map_eq (interruptCheck_eraseFlag s) with ⟨f, h, h'⟩ | ⟨u, t, h, h', hut⟩
    · rw [h, h']
    · have hfetch : fetchDecode u = fetchDecode t := by
        rw [← fetchDecode_eraseFlag u, hut, fetchDecode_eraseFlag]
      simp only [h, h', hfetch]
      cases fetchDecode t with
      | error f => rfl
      | ok i => simp [Except.map, hut]

/-- A state steps like itself with the flag erased. -/
theorem step_eraseFlag (s : State) : AgreeUpTo State.eraseFlag (step s) (step s.eraseFlag) := by
  have hhalted : s.eraseFlag.halted = s.halted := rfl
  unfold step
  rw [hhalted]
  split
  · rfl
  · rcases except_cases_of_map_eq (beginCycle_eraseFlag s) with ⟨f, h, h'⟩ | ⟨⟨i, u⟩, ⟨j, t⟩, h, h', hut⟩
    · rw [h, h']
      rfl
    · obtain ⟨rfl, htu⟩ : i = j ∧ u.eraseFlag = t.eraseFlag := by simpa using hut
      rw [h, h']
      exact exec_agree_of_eraseFlag_eq i htu.symm

/-- Settles O45: both states step like the one state that erasing the flag makes of them. -/
theorem zeroFlagIsNeverRead : Obligations.ZeroFlagIsNeverRead := by
  intro s t h
  exact (step_eraseFlag s).trans (h ▸ (step_eraseFlag t).symm)

end Sys2Proof.Machine
end

section
/-! PROOF of O49. A loaded program decodes to the instructions of its records, by three facts: a record that reads
as an instruction reads as a well-formed one (R74), the word of a well-formed instruction decodes to it (R79), and
the words of a load are those of its records, entry by entry. -/

namespace Sys2Proof

/-! ### Decoding the word of an instruction -/

section
variable (op : Opcode) (o a : BitVec 3) (t : BitVec 1) (v : Word)

theorem decodeOut_packWord {r : Reg} (h : r.writable = true) : decodeOut (packWord op r.number a t v) = .ok r := by
  simp [decodeOut, h]

@[simp] theorem decodeArg1_packWord (r : Reg) : decodeArg1 (packWord op o r.number t v) = .ok r := by
  simp [decodeArg1]

/-- The number of a register operand stands in the low three bits of the field, under zeros. -/
theorem extract_zero_append_number (r : Reg) :
    (0#29 ++ r.number).extractLsb' 3 29 = 0#29 ∧ (0#29 ++ r.number).extractLsb' 0 3 = r.number := by
  cases r <;> decide

@[simp] theorem decodeArg2_packWord (x : Operand) : decodeArg2 (packWord op o a x.typeBit x.field) = .ok x := by
  cases x with
  | reg r =>
    obtain ⟨hzeros, hnumber⟩ := extract_zero_append_number r
    simp [decodeArg2, Operand.typeBit, Operand.field, hzeros, hnumber]
  | const imm => simp [decodeArg2, Operand.typeBit, Operand.field]

end

/-- The law of the encoded opcode, for every instruction at once. -/
theorem encodedOpcode (i : Instr) : Laws.EncodedOpcode.Statement i := by
  cases i with
  | add o a v => exact Laws.EncodedOpcode.add o a v
  | sub o a v => exact Laws.EncodedOpcode.sub o a v
  | div o a v => exact Laws.EncodedOpcode.div o a v
  | mod o a v => exact Laws.EncodedOpcode.mod o a v
  | mul o a v => exact Laws.EncodedOpcode.mul o a v
  | cmp o a v => exact Laws.EncodedOpcode.cmp o a v
  | je a v => exact Laws.EncodedOpcode.je a v
  | jne a v => exact Laws.EncodedOpcode.jne a v
  | jmp v => exact Laws.EncodedOpcode.jmp v
  | out v => exact Laws.EncodedOpcode.out v
  | in_ o => exact Laws.EncodedOpcode.in_ o
  | ld o v => exact Laws.EncodedOpcode.ld o v
  | sv a v => exact Laws.EncodedOpcode.sv a v
  | iret => exact Laws.EncodedOpcode.iret
  | sti => exact Laws.EncodedOpcode.sti
  | cli => exact Laws.EncodedOpcode.cli
  | halt => exact Laws.EncodedOpcode.halt

/-- The word of an instruction passes the checks of the decoder and is read slot by slot. -/
theorem decode_encode_eq_decodeSlots (i : Instr) : decode (encode i) = decodeSlots i.opcode (encode i) := by
  obtain ⟨hopcode, hreserved, hunused⟩ := encodedOpcode i
  simp [decode, hopcode, hreserved, hunused]

section
variable {op : Opcode} {o : Reg} (a : Reg) (v : Operand)

theorem decodeA_packWord (ho : o.writable = true) (mk : Reg → Reg → Operand → Instr) :
    decodeA (packWord op o.number a.number v.typeBit v.field) mk = .ok (mk o a v) := by
  simp [decodeA, decodeOut_packWord, ho]

theorem decodeB_packWord (n : BitVec 3) (mk : Reg → Operand → Instr) :
    decodeB (packWord op n a.number v.typeBit v.field) mk = .ok (mk a v) := by
  simp [decodeB]

theorem decodeJ_packWord (n m : BitVec 3) (mk : Operand → Instr) :
    decodeJ (packWord op n m v.typeBit v.field) mk = .ok (mk v) := by
  simp [decodeJ]

theorem decodeL_packWord (ho : o.writable = true) (m : BitVec 3) (mk : Reg → Operand → Instr) :
    decodeL (packWord op o.number m v.typeBit v.field) mk = .ok (mk o v) := by
  simp [decodeL, decodeOut_packWord, ho]

theorem decodeI_packWord (ho : o.writable = true) (m : BitVec 3) (t : BitVec 1) (x : Word) (mk : Reg → Instr) :
    decodeI (packWord op o.number m t x) mk = .ok (mk o) := by
  simp [decodeI, decodeOut_packWord, ho]

end

/-- R79: the word of a well-formed instruction decodes to that instruction. Where the format has a slot `out`,
well-formedness is that this slot is writable (R74 c). -/
theorem decode_encode {i : Instr} (h : i.wellFormed = true) : decode (encode i) = .ok i := by
  rw [decode_encode_eq_decodeSlots]
  cases i with
  | add o a v => exact decodeA_packWord a v h .add
  | sub o a v => exact decodeA_packWord a v h .sub
  | div o a v => exact decodeA_packWord a v h .div
  | mod o a v => exact decodeA_packWord a v h .mod
  | mul o a v => exact decodeA_packWord a v h .mul
  | cmp o a v => exact decodeA_packWord a v h .cmp
  | je a v => exact decodeB_packWord a v _ .je
  | jne a v => exact decodeB_packWord a v _ .jne
  | jmp v => exact decodeJ_packWord v _ _ .jmp
  | out v => exact decodeJ_packWord v _ _ .out
  | in_ o => exact decodeI_packWord h _ _ _ .in_
  | ld o v => exact decodeL_packWord v h _ .ld
  | sv a v => exact decodeB_packWord a v _ .sv
  | iret => rfl
  | sti => rfl
  | cli => rfl
  | halt => rfl

/-! ### Records -/

section
variable {r : Record} {i : Instr}

/-- R23: a name of the class `wreg` stands for a writable register. -/
theorem RegName.isWreg_of_toReg? {n : RegName} {o : Reg} (h : n.toReg? = some o) : n.isWreg = o.writable := by
  cases n with
  | pc => simp [RegName.toReg?] at h
  | r0 | r1 | r2 | r3 | r4 | sp =>
    obtain rfl := Option.some.inj h
    rfl

/-- A slot `out` that is read is writable (R74 c). -/
theorem Record.out?_writable {o : Reg} (h : r.out? = some o) : o.writable = true := by
  unfold Record.out? at h
  split at h
  · split at h
    · next hn => rw [← RegName.isWreg_of_toReg? h, hn]
    · simp at h
  · simp at h

theorem Record.asA_eq_some {mk : Reg → Reg → Operand → Instr} (h : r.asA mk = some i) :
    ∃ o a v, r.out? = some o ∧ i = mk o a v := by
  unfold Record.asA at h
  split at h
  · next o a v ho _ _ => exact ⟨o, a, v, ho, by simpa using h.symm⟩
  · simp at h

theorem Record.asB_eq_some {mk : Reg → Operand → Instr} (h : r.asB mk = some i) : ∃ a v, i = mk a v := by
  unfold Record.asB at h
  split at h
  · next a v _ _ _ => exact ⟨a, v, by simpa using h.symm⟩
  · simp at h

theorem Record.asJ_eq_some {mk : Operand → Instr} (h : r.asJ mk = some i) : ∃ v, i = mk v := by
  unfold Record.asJ at h
  split at h
  · next v _ _ => exact ⟨v, by simpa using h.symm⟩
  · simp at h

theorem Record.asL_eq_some {mk : Reg → Operand → Instr} (h : r.asL mk = some i) :
    ∃ o v, r.out? = some o ∧ i = mk o v := by
  unfold Record.asL at h
  split at h
  · next o v ho _ _ => exact ⟨o, v, ho, by simpa using h.symm⟩
  · simp at h

theorem Record.asI_eq_some {mk : Reg → Instr} (h : r.asI mk = some i) : ∃ o, r.out? = some o ∧ i = mk o := by
  unfold Record.asI at h
  split at h
  · next o ho _ => exact ⟨o, ho, by simpa using h.symm⟩
  · simp at h

theorem Record.asN_eq_some {j : Instr} (h : r.asN j = some i) : i = j := by
  unfold Record.asN at h
  split at h
  · simpa using h.symm
  · simp at h

/-- R74: what a record reads as is well-formed: its slot `out`, if any, was read as writable. -/
theorem Record.toInstr?_wellFormed (h : r.toInstr? = some i) : i.wellFormed = true := by
  unfold Record.toInstr? at h
  generalize r.opcode = op at h
  cases op with
  | add | sub | div | mod | mul | cmp =>
    obtain ⟨o, a, v, ho, rfl⟩ := Record.asA_eq_some h
    exact Record.out?_writable ho
  | je | jne | sv =>
    obtain ⟨a, v, rfl⟩ := Record.asB_eq_some h
    rfl
  | jmp | out =>
    obtain ⟨v, rfl⟩ := Record.asJ_eq_some h
    rfl
  | ld =>
    obtain ⟨o, v, ho, rfl⟩ := Record.asL_eq_some h
    exact Record.out?_writable ho
  | in_ =>
    obtain ⟨o, ho, rfl⟩ := Record.asI_eq_some h
    exact Record.out?_writable ho
  | iret | sti | cli | halt =>
    obtain rfl := Record.asN_eq_some h
    rfl

end

namespace Machine

/-! ### The load -/

/-- The words of a load are those of the instructions its records read as, in order. -/
theorem encodeCode_ok {k : Nat} {rs : List Record} {ws : List InstrWord} (h : encodeCode k rs = .ok ws) :
    List.Forall₂ (fun r w => ∃ i, r.toInstr? = some i ∧ w = encode i) rs ws := by
  induction rs generalizing k ws with
  | nil =>
    obtain rfl : [] = ws := by simpa [encodeCode] using h
    exact .nil
  | cons r rs ih =>
    unfold encodeCode at h
    split at h
    · simp at h
    · next i hi =>
      split at h
      · simp at h
      · next ws' hws =>
        obtain rfl : encode i :: ws' = ws := by simpa using h
        exact .cons ⟨i, hi, rfl⟩ (ih hws)

/-- A load that is not refused passed each check, and is the reset state of its words, data and setup. -/
theorem load_ok {a : Artifact} {h : Setup} {s : State} (hs : load a h = .ok s) :
    ∃ code, encodeCode 0 a.code = .ok code ∧ code.length ≤ Config.maxEntries ∧ 1 ≤ a.data.length ∧
      a.data.length ≤ h.dmemSize ∧ h.dmemSize ≤ Config.maxEntries ∧ scheduleOk h.schedule = true ∧
      s = bootState code a.data h := by
  unfold load at hs
  split at hs
  · simp at hs
  · next code hcode =>
    split at hs
    · simp at hs
    · next hcount =>
      split at hs
      · simp at hs
      · next hdata =>
        split at hs
        · simp at hs
        · next hsize =>
          split at hs
          · next hsched =>
            obtain ⟨hfits, hmax⟩ := not_or.mp hsize
            exact ⟨code, hcode, not_lt.mp hcount, not_lt.mp hdata, not_lt.mp hfits, not_lt.mp hmax, hsched,
              (Except.ok.inj hs).symm⟩
          · simp at hs

/-- R34, R190: each entry of an accepted schedule has a tick that is not negative and a codepoint. -/
theorem scheduleOk_bounds {es : List (Int × Nat)} (h : scheduleOk es = true) :
    ∀ e ∈ es, 0 ≤ e.1 ∧ e.2 ≤ Config.maxCodepoint := by
  fun_induction scheduleOk es with
  | case1 => simp
  | case2 t c => simpa using h
  | case3 t c t' c' es ih =>
    simp only [Bool.and_eq_true, decide_eq_true_eq] at h
    obtain ⟨⟨⟨ht, hc⟩, -⟩, hrest⟩ := h
    exact List.forall_mem_cons.mpr ⟨⟨ht, hc⟩, ih hrest⟩

/-- R190: the device holds an accepted entry as it was given: neither conversion loses anything. -/
theorem toSchedule_getElem? {es : List (Int × Nat)} (hok : scheduleOk es = true) {k : Nat} {t : Int} {c : Nat}
    (h : es[k]? = some (t, c)) :
    ∃ e, (toSchedule es)[k]? = some e ∧ (e.tick : Int) = t ∧ e.char.toNat = c := by
  obtain ⟨ht, hc⟩ := scheduleOk_bounds hok _ (List.mem_of_getElem? h)
  refine ⟨⟨t.toNat, BitVec.ofNat 32 c⟩, by simp [toSchedule, h], Int.toNat_of_nonneg ht, ?_⟩
  have : c ≤ 0x10FFFF := hc
  simp only [BitVec.toNat_ofNat]
  omega

/-- R40: `sp` is `DMEM_SIZE - 1`, which fits a word since `DMEM_SIZE` is 1 to 2^31. -/
theorem bootState_sp {code : List InstrWord} {data : List Word} {h : Setup} (hpos : 1 ≤ h.dmemSize)
    (hmax : h.dmemSize ≤ Config.maxEntries) : (bootState code data h).sp.toNat = h.dmemSize - 1 := by
  have hword : h.dmemSize ≤ 2 ^ 31 := hmax
  simp only [bootState, wrap32, BitVec.toNat_ofInt]
  omega

/-- Instruction memory entry by entry: the word of a record's instruction, which decodes to it. -/
theorem encodeCode_getElem? {rs : List Record} {ws : List InstrWord} (h : encodeCode 0 rs = .ok ws) {k : Nat}
    {r : Record} (hr : rs[k]? = some r) : ∃ w i, ws[k]? = some w ∧ decode w = .ok i ∧ r.toInstr? = some i := by
  obtain ⟨hlt, rfl⟩ := List.getElem?_eq_some_iff.mp hr
  have hwords := encodeCode_ok h
  have hlt' : k < ws.length := hwords.length_eq ▸ hlt
  obtain ⟨i, hi, hw⟩ := hwords.get hlt hlt'
  exact ⟨encode i, i, by simpa [hlt'] using hw, decode_encode (Record.toInstr?_wellFormed hi), hi⟩

/-- Settles O49: the fields of `bootState` are the rows of R40; `sp`, the cells, the schedule and the program are the
rows that the load computes. -/
theorem loadGivesTheResetState : Obligations.LoadGivesTheResetState := by
  intro a h s hs
  obtain ⟨code, hcode, -, hdata, hfits, hmax, hsched, rfl⟩ := load_ok hs
  have hsp : (bootState code a.data h).sp.toNat = h.dmemSize - 1 := bootState_sp (hdata.trans hfits) hmax
  have hcells (k : Nat) : (bootState code a.data h).readCell k = a.data.getD k 0#32 :=
    (Memory.read_ofData a.data 0 k).trans (by simp)
  have hlength : (toSchedule h.schedule).length = h.schedule.length := List.length_map _
  exact ⟨rfl, rfl, rfl, rfl, rfl, rfl, rfl, rfl, rfl, rfl, hsp, hcells, rfl, hlength,
    fun _ _ _ => toSchedule_getElem? hsched, rfl, rfl, rfl, rfl, rfl, rfl,
    (encodeCode_ok hcode).length_eq.symm, fun _ _ => encodeCode_getElem? hcode⟩

end Machine

end Sys2Proof
end

section
/-! PROOF of O25 to O27: data memory and instruction memory at an address, read as a signed number (R51). -/

namespace Sys2Proof.Machine

/-! ### Addresses -/

/-- A word that is not negative has one reading, signed or unsigned. -/
theorem toInt_eq_toNat_of_nonneg {a : Word} (h : 0 ≤ a.toInt) : a.toInt = a.toNat :=
  BitVec.toInt_eq_toNat_of_msb (by simpa [BitVec.msb_eq_toInt] using h)

/-- Within 2^31 entries the unsigned reading of an address decides validity too: a word below `DMEM_SIZE` has no
sign bit. -/
theorem State.validAddr_iff_toNat_lt {s : State} (hsize : s.dmemSize ≤ 2 ^ 31) (a : Word) :
    s.validAddr a = true ↔ a.toNat < s.dmemSize := by
  refine ⟨fun hvalid => (State.validAddr_toNat hvalid).2, fun hlt => (s.validAddr_iff a).mpr ?_⟩
  have hsigned : a.toInt = a.toNat := BitVec.toInt_eq_toNat_of_lt (by omega)
  omega

/-- Settles O25. -/
theorem signedAndUnsignedAddressesAgree : Obligations.SignedAndUnsignedAddressesAgree :=
  fun s a => ⟨s.validAddr_iff a, fun hsize => State.validAddr_iff_toNat_lt hsize a⟩

/-! ### Data memory -/

/-- Settles O26: a valid address is served by `readCell` and `writeCell`, whose rules are those of the cell list; any
other address faults. -/
theorem memoryReadsBackWrites : Obligations.MemoryReadsBackWrites := by
  intro s a v hwf
  split
  · next hinside =>
    have hvalid : s.validAddr a = true := (s.validAddr_iff a).mpr hinside
    exact ⟨memRead_of_valid hvalid, s.writeCell a.toNat v, memWrite_of_valid v hvalid,
      State.readCell_writeCell_self hwf a.toNat v, Memory.write_wf hwf a.toNat v,
      fun _ hne => s.readCell_writeCell_of_ne v hne, Memory.write s.dmem a.toNat v, rfl⟩
  · next houtside =>
    have hinvalid : s.validAddr a = false := Bool.eq_false_iff.mpr (mt (s.validAddr_iff a).mp houtside)
    exact ⟨memRead_of_invalid hinvalid, memWrite_of_invalid v hinvalid⟩

/-! ### Fetch -/

/-- R57: `IFetch` answers the entry that a `pc` inside instruction memory names. -/
theorem fetch_of_inside {s : State} {k : Nat} (hpc : s.pc.toInt = k) (hk : k < s.imem.length) :
    fetch s = .ok s.imem[k] := by
  have hnonneg : ¬ s.pc.toInt < 0 := by omega
  have hindex : s.pc.toNat = k := by
    have := toInt_eq_toNat_of_nonneg (not_lt.mp hnonneg)
    omega
  simp [fetch, hnonneg, hindex, hk]

/-- R57: `IFetch` faults with a `pc` outside instruction memory: negative, or past the last entry. -/
theorem fetch_of_outside {s : State} (h : s.pc.toInt < 0 ∨ s.imem.length ≤ s.pc.toInt) :
    fetch s = .error (.memoryError .instr s.pc.toInt) := by
  by_cases hneg : s.pc.toInt < 0
  · simp [fetch, hneg]
  · have hpast : s.imem.length ≤ s.pc.toNat := by
      have := toInt_eq_toNat_of_nonneg (not_lt.mp hneg)
      omega
    simp [fetch, hneg, hpast]

/-- Settles O27. -/
theorem fetchReadsProgramOrFaults : Obligations.FetchReadsProgramOrFaults :=
  fun _ => ⟨fun _ hpc hk => fetch_of_inside hpc hk, fetch_of_outside⟩

end Sys2Proof.Machine
end

section
/-! PROOF of O43. What the host fixes at load is one component of the state, and no operation of a cycle writes it. -/

namespace Sys2Proof.Machine

/-- What the host fixes at load (R64, R190, R210): the program, the schedule, `DMEM_SIZE` and the budget. -/
def State.loaded (s : State) : List InstrWord × List InputEntry × Nat × Option Nat :=
  (s.imem, s.schedule, s.dmemSize, s.tickBudget)

theorem interruptCheck_loaded {s t : State} (ht : interruptCheck s = .ok t) : t.loaded = s.loaded := by
  rcases interruptCheck_ok ht with ⟨-, rfl⟩ | ⟨-, -, rfl⟩ | ⟨-, -, e, -, hentry⟩
  · rfl
  · rfl
  · obtain ⟨-, rfl⟩ := interruptEntry_ok hentry
    simp [State.loaded]

theorem arith_loaded {op : AluOp} {o a : Reg} {v : Operand} {s t : State} (ht : arith op o a v s = .next t) :
    t.loaded = s.loaded := by
  obtain ⟨x, -, rfl⟩ := arith_next ht
  simp [State.loaded]

theorem branch_loaded (taken : Bool) (v : Operand) (s : State) : (branch taken v s).loaded = s.loaded := by
  cases taken <;> simp [branch, State.loaded]

/-- No instruction can write what was loaded: `sv` reaches data memory alone (R64). -/
theorem exec_loaded {i : Instr} {s t : State} (ht : exec i s = .next t) : t.loaded = s.loaded := by
  cases i with
  | add o a v => exact arith_loaded (op := .add) ht
  | sub o a v => exact arith_loaded (op := .sub) ht
  | div o a v => exact arith_loaded (op := .div) ht
  | mod o a v => exact arith_loaded (op := .mod) ht
  | mul o a v => exact arith_loaded (op := .mul) ht
  | cmp o a v => exact arith_loaded (op := .cmp) ht
  | je a v =>
    obtain rfl := Host.Outcome.next.inj ht
    exact branch_loaded _ v s
  | jne a v =>
    obtain rfl := Host.Outcome.next.inj ht
    exact branch_loaded _ v s
  | in_ o =>
    obtain ⟨c, -, rfl⟩ := execIn_next ht
    simp [State.loaded]
  | ld o v =>
    obtain ⟨-, rfl⟩ := execLd_next ht
    simp [State.loaded]
  | sv a v =>
    obtain ⟨-, rfl⟩ := execSv_next ht
    simp [State.loaded]
  | iret =>
    obtain ⟨-, rfl⟩ := execIret_next ht
    simp [State.loaded]
  | jmp | out | sti | cli | halt =>
    obtain rfl := Host.Outcome.next.inj ht
    simp [State.loaded]

theorem step_loaded {s t : State} (ht : step s = .next t) : t.loaded = s.loaded := by
  rcases step_next ht with ⟨-, rfl⟩ | ⟨-, i, s1, hbegin, hexec⟩
  · rfl
  · obtain ⟨-, hcheck, -⟩ := beginCycle_ok hbegin
    exact (exec_loaded hexec).trans (interruptCheck_loaded hcheck)

/-- Settles O43. -/
theorem loadedInputsNeverChange : Obligations.LoadedInputsNeverChange := by
  intro s t ht
  simpa [State.loaded] using step_loaded ht

end Sys2Proof.Machine
end

section
/-! PROOF of O42 and O50: which loads are accepted, and that the reset state of an accepted one meets the invariant.
The load reads each record as an instruction and tests the schedule between neighbours; that this is
R74's well-formedness and R190's order over all pairs are the two facts the acceptance turns on. -/

namespace Sys2Proof

/-! ### Records that read as an instruction -/

namespace Record

variable (r : Record)

/-- Each slot of the format is read, and each slot it lacks is absent. -/
def readsAs (f : Format) : Bool :=
  (if f.hasOut then r.out?.isSome else r.noOut) &&
  (if f.hasArg1 then r.arg1?.isSome else r.noArg1) &&
  (if f.hasArg2 then r.arg2?.isSome else r.noArg2)

theorem isSome_asA (mk : Reg → Reg → Operand → Instr) : (r.asA mk).isSome = r.readsAs .A := by
  unfold asA readsAs
  cases r.out? <;> cases r.arg1? <;> cases r.arg2? <;> rfl

theorem isSome_asB (mk : Reg → Operand → Instr) : (r.asB mk).isSome = r.readsAs .B := by
  unfold asB readsAs
  cases r.noOut <;> cases r.arg1? <;> cases r.arg2? <;> rfl

theorem isSome_asJ (mk : Operand → Instr) : (r.asJ mk).isSome = r.readsAs .J := by
  unfold asJ readsAs
  cases r.noOut <;> cases r.noArg1 <;> cases r.arg2? <;> rfl

theorem isSome_asL (mk : Reg → Operand → Instr) : (r.asL mk).isSome = r.readsAs .L := by
  unfold asL readsAs
  cases r.out? <;> cases r.noArg1 <;> cases r.arg2? <;> rfl

theorem isSome_asI (mk : Reg → Instr) : (r.asI mk).isSome = r.readsAs .I := by
  unfold asI readsAs
  cases r.out? <;> cases r.noArg1 <;> cases r.noArg2 <;> rfl

theorem isSome_asN (i : Instr) : (r.asN i).isSome = r.readsAs .N := by
  unfold asN readsAs
  cases r.noOut <;> cases r.noArg1 <;> cases r.noArg2 <;> rfl

/-- R72: a record reads as an instruction by the slots of its opcode's format. -/
theorem isSome_toInstr? : r.toInstr?.isSome = r.readsAs r.opcode.format := by
  unfold toInstr?
  generalize r.opcode = op
  cases op with
  | add | sub | div | mod | mul | cmp => exact r.isSome_asA _
  | je | jne | sv => exact r.isSome_asB _
  | jmp | out => exact r.isSome_asJ _
  | ld => exact r.isSome_asL _
  | in_ => exact r.isSome_asI _
  | iret | sti | cli | halt => exact r.isSome_asN _

/-- R74 (b) and (c) for the slot `out`. -/
theorem out_slot (present : Bool) :
    (r.out.isSome == present && r.outOk) = if present then r.out?.isSome else r.noOut := by
  unfold outOk out? noOut
  cases r.out with
  | none => cases present <;> rfl
  | some n => cases n <;> cases present <;> rfl

/-- R74 (b) and (d) for the slot `arg1`. -/
theorem arg1_slot (present : Bool) :
    (r.arg1.isSome == present && r.arg1Ok) = if present then r.arg1?.isSome else r.noArg1 := by
  unfold arg1Ok arg1? noArg1
  cases r.arg1 with
  | none => cases present <;> rfl
  | some n => cases n <;> cases present <;> rfl

/-- R74 (b) and (e) for the slot `arg2` and its type. -/
theorem arg2_slot (present : Bool) :
    (r.arg2.isSome == present && r.arg2Ok) = if present then r.arg2?.isSome else r.noArg2 := by
  unfold arg2Ok arg2? noArg2
  cases r.arg2 with
  | none => cases r.arg2Type <;> cases present <;> rfl
  | some x =>
    cases x with
    | name n =>
      rcases r.arg2Type with _ | (_ | _)
      · cases present <;> rfl
      · cases n <;> cases present <;> rfl
      · cases present <;> rfl
    | int z =>
      rcases r.arg2Type with _ | (_ | _)
      · cases present <;> rfl
      · cases present <;> rfl
      · by_cases hz : -2 ^ 31 ≤ z ∧ z ≤ 2 ^ 31 - 1 <;> simp only [hz] <;> cases present <;> rfl

/-- R74: the well-formed records are those that read as an instruction. -/
theorem wellFormed_eq_isSome_toInstr? : r.wellFormed = r.toInstr?.isSome := by
  rw [isSome_toInstr?, readsAs, ← out_slot, ← arg1_slot, ← arg2_slot, wellFormed]
  ac_rfl

end Record

namespace Machine

/-! ### The checks of a load -/

theorem exists_encodeCode_ok_iff {k : Nat} {rs : List Record} :
    (∃ ws, encodeCode k rs = .ok ws) ↔ ∀ r ∈ rs, r.wellFormed = true := by
  induction rs generalizing k with
  | nil => simp [encodeCode]
  | cons r rs ih =>
    rw [List.forall_mem_cons, Record.wellFormed_eq_isSome_toInstr?, ← ih (k := k + 1), encodeCode]
    cases r.toInstr? with
    | none => simp
    | some i => cases encodeCode (k + 1) rs <;> simp

/-- R34, R190: the test of neighbours accepts exactly the schedules whose entries are in bounds and whose ticks are
non-decreasing. -/
theorem scheduleOk_iff {es : List (Int × Nat)} :
    scheduleOk es = true ↔
      (∀ e ∈ es, 0 ≤ e.1 ∧ e.2 ≤ Config.maxCodepoint) ∧ es.Pairwise (fun e e' => e.1 ≤ e'.1) := by
  have htrans : Trans (fun e e' : Int × Nat => e.1 ≤ e'.1) (fun e e' : Int × Nat => e.1 ≤ e'.1)
      (fun e e' : Int × Nat => e.1 ≤ e'.1) := ⟨le_trans⟩
  rw [← List.isChain_iff_pairwise]
  fun_induction scheduleOk es with
  | case1 => simp
  | case2 t c => simp
  | case3 t c t' c' es ih =>
    simp only [Bool.and_eq_true, decide_eq_true_eq, ih, List.isChain_cons_cons, List.forall_mem_cons]
    tauto

/-- A load that passes each check is accepted. -/
theorem load_of_checks {a : Artifact} {h : Setup} {code : List InstrWord} (hcode : encodeCode 0 a.code = .ok code)
    (hcount : code.length ≤ Config.maxEntries) (hdata : 1 ≤ a.data.length) (hfits : a.data.length ≤ h.dmemSize)
    (hmax : h.dmemSize ≤ Config.maxEntries) (hsched : scheduleOk h.schedule = true) :
    load a h = .ok (bootState code a.data h) := by
  have hvector : Config.vectorCells ≤ a.data.length := hdata
  simp [load, hcode, hvector.not_gt, hcount.not_gt, hfits.not_gt, hmax.not_gt, hsched]

/-- Settles O50: what `load_ok` says of an accepted load, each check put as the rule it stands for. -/
theorem loadRefusesExactlyBadInputs : Obligations.LoadRefusesExactlyBadInputs := by
  intro a h
  constructor
  · rintro ⟨s, hs⟩
    obtain ⟨code, hcode, hcount, hdata, hfits, hmax, hsched, -⟩ := load_ok hs
    obtain ⟨hbounds, hsorted⟩ := scheduleOk_iff.mp hsched
    have hlength : a.code.length = code.length := (encodeCode_ok hcode).length_eq
    exact ⟨exists_encodeCode_ok_iff.mp ⟨code, hcode⟩, hlength.trans_le hcount, hdata, hfits, hmax, hbounds, hsorted⟩
  · rintro ⟨hrecords, hcount, hdata, hfits, hmax, hbounds, hsorted⟩
    obtain ⟨code, hcode⟩ := exists_encodeCode_ok_iff.mpr hrecords
    have hlength : a.code.length = code.length := (encodeCode_ok hcode).length_eq
    exact ⟨_, load_of_checks hcode (hlength.symm.trans_le hcount) hdata hfits hmax
      (scheduleOk_iff.mpr ⟨hbounds, hsorted⟩)⟩

/-! ### The reset state of an accepted load -/

/-- R190: the device holds the entries in the order of the host's ticks. -/
theorem toSchedule_sorted {es : List (Int × Nat)} (h : es.Pairwise (fun e e' => e.1 ≤ e'.1)) :
    (toSchedule es).Pairwise (fun e e' => e.tick ≤ e'.tick) :=
  h.map _ fun _ _ => Int.toNat_le_toNat

/-- R34: a codepoint is still one as a word. -/
theorem toSchedule_chars {es : List (Int × Nat)} (h : ∀ e ∈ es, e.2 ≤ Config.maxCodepoint) :
    ∀ e ∈ toSchedule es, e.char.toNat ≤ Config.maxCodepoint := by
  refine List.forall_mem_map.mpr fun e he => ?_
  exact (BitVec.toNat_ofNat e.2 32).trans_le ((Nat.mod_le _ _).trans (h e he))

/-- Settles O42: memory and schedule meet the invariant by the checks of the load; the rest of the state is at rest. -/
theorem loadMeetsTheInvariant : Obligations.LoadMeetsTheInvariant := by
  intro a h s hs
  obtain ⟨code, -, hcount, hdata, hfits, hmax, hsched, rfl⟩ := load_ok hs
  obtain ⟨hbounds, hsorted⟩ := scheduleOk_iff.mp hsched
  have hinside (p : Nat × Word) (hp : p ∈ Memory.ofData 0 a.data) : p.1 < h.dmemSize := by
    have := Memory.mem_ofData hp
    omega
  exact {
    memoryCanonical := Memory.ofData_wf 0 a.data
    memoryInside := hinside
    memorySize := ⟨hdata.trans hfits, hmax⟩
    programSize := hcount
    cursorInside := Nat.zero_le _
    scheduleSorted := toSchedule_sorted hsorted
    scheduleChars := toSchedule_chars fun e he => (hbounds e he).2
    latchChar := fun _ hc => nomatch hc
    tickBounds := ⟨le_rfl, le_rfl⟩ }

end Machine

end Sys2Proof
end

section
/-! PROOF of O1, O2 and O4: a well-formed instruction has one word, and that word decodes to it alone. `decode_encode`
is the one half; for the other, each slot that is read gives back the field it was read from. -/

namespace Sys2Proof

/-- Settles O1. -/
theorem decodeInvertsEncode : Obligations.DecodeInvertsEncode :=
  fun _ => decode_encode

/-- R79: a field that the format lacks is zero. -/
theorem unusedFieldsZero_iff {f : Format} {w : InstrWord} :
    unusedFieldsZero f w = true ↔
      (f.hasOut = false → fieldOut w = 0#3) ∧ (f.hasArg1 = false → fieldArg1 w = 0#3) ∧
      (f.hasArg2 = false → fieldT w = 0#1 ∧ fieldArg2 w = 0#32) := by
  unfold unusedFieldsZero
  cases f.hasOut <;> cases f.hasArg1 <;> cases f.hasArg2 <;> simp [and_assoc]

/-- What is read slot by slot has the fields it was read from, and its slot `out`, if any, is writable (R74 c). -/
theorem encode_of_decodeSlots {w : InstrWord} {op : Opcode} {i : Instr} (hunused : unusedFieldsZero op.format w = true)
    (h : decodeSlots op w = .ok i) :
    encode i = packWord op (fieldOut w) (fieldArg1 w) (fieldT w) (fieldArg2 w) ∧ i.wellFormed = true := by
  obtain ⟨hout, harg1, harg2⟩ := unusedFieldsZero_iff.mp hunused
  cases op with
  | add | sub | div | mod | mul | cmp =>
    obtain ⟨o, a, v, rfl, ho, ha, hv⟩ := decodeA_ok h
    obtain ⟨hnumber, hwritable⟩ := decodeOut_ok ho
    obtain ⟨htype, hfield⟩ := decodeArg2_ok hv
    exact ⟨by rw [encode, hnumber, decodeArg1_ok ha, htype, hfield], hwritable⟩
  | je | jne | sv =>
    obtain ⟨a, v, rfl, ha, hv⟩ := decodeB_ok h
    obtain ⟨htype, hfield⟩ := decodeArg2_ok hv
    exact ⟨by rw [encode, hout rfl, decodeArg1_ok ha, htype, hfield], rfl⟩
  | jmp | out =>
    obtain ⟨v, rfl, hv⟩ := decodeJ_ok h
    obtain ⟨htype, hfield⟩ := decodeArg2_ok hv
    exact ⟨by rw [encode, hout rfl, harg1 rfl, htype, hfield], rfl⟩
  | ld =>
    obtain ⟨o, v, rfl, ho, hv⟩ := decodeL_ok h
    obtain ⟨hnumber, hwritable⟩ := decodeOut_ok ho
    obtain ⟨htype, hfield⟩ := decodeArg2_ok hv
    exact ⟨by rw [encode, hnumber, harg1 rfl, htype, hfield], hwritable⟩
  | in_ =>
    obtain ⟨o, rfl, ho⟩ := decodeI_ok h
    obtain ⟨hnumber, hwritable⟩ := decodeOut_ok ho
    obtain ⟨htype, hfield⟩ := harg2 rfl
    exact ⟨by rw [encode, hnumber, harg1 rfl, htype, hfield], hwritable⟩
  | iret | sti | cli | halt =>
    obtain rfl := Except.ok.inj h
    obtain ⟨htype, hfield⟩ := harg2 rfl
    exact ⟨by rw [encode, hout rfl, harg1 rfl, htype, hfield], rfl⟩

/-- Settles O2: the word is its own fields packed, and so is the word of the instruction read from them. -/
theorem encodeInvertsDecode : Obligations.EncodeInvertsDecode := by
  intro w i h
  obtain ⟨op, hop, hreserved, hunused, hslots⟩ := decode_ok h
  obtain ⟨hencode, hwf⟩ := encode_of_decodeSlots hunused hslots
  exact ⟨hencode.trans (eq_packWord hop hreserved).symm, hwf⟩

/-- Settles O4: the decoder is run on the twelve words. -/
theorem writtenOutWordsDecode : Obligations.WrittenOutWordsDecode :=
  ⟨rfl, rfl, rfl, rfl, rfl, rfl, rfl, rfl, rfl, rfl, rfl, rfl⟩

end Sys2Proof
end

section
/-! PROOF of O5. A slot is read as an operand exactly when it holds what the record of that operand holds; so a record
reads as an instruction exactly when that instruction is well-formed and the record is its own. -/

namespace Sys2Proof

theorem RegName.toReg?_eq_some_iff {n : RegName} {q : Reg} : n.toReg? = some q ↔ n = q.toName := by
  cases n <;> cases q <;> decide

/-- R74 (e): an integer of 32 bits is the signed value of the word it stands for, and of no other. -/
theorem inRange_and_ofInt_eq_iff {z : Int} {imm : Word} :
    (-2 ^ 31 ≤ z ∧ z ≤ 2 ^ 31 - 1) ∧ BitVec.ofInt 32 z = imm ↔ z = imm.toInt := by
  constructor
  · rintro ⟨⟨hlow, hhigh⟩, rfl⟩
    exact (BitVec.toInt_ofInt_eq_self (by decide) hlow (Int.lt_of_le_sub_one hhigh)).symm
  · rintro rfl
    exact ⟨⟨imm.le_toInt, Int.le_sub_one_of_lt imm.toInt_lt⟩, BitVec.ofInt_toInt⟩

namespace Record

section
variable {r : Record}

/-! ### One slot -/

/-- R74 (c): the slot `out` is read when it names a writable register. -/
theorem out?_eq_some_iff {o : Reg} : r.out? = some o ↔ o.writable = true ∧ r.out = some o.toName := by
  unfold out?
  cases r.out with
  | none => simp
  | some n =>
    simp only [Option.ite_none_right_eq_some, RegName.toReg?_eq_some_iff, Option.some.injEq]
    refine and_congr_left ?_
    rintro rfl
    rw [RegName.isWreg_of_toReg? (RegName.toReg?_eq_some_iff.mpr rfl)]

theorem arg1?_eq_some_iff {a : Reg} : r.arg1? = some a ↔ r.arg1 = some a.toName := by
  unfold arg1?
  cases r.arg1 <;> simp [RegName.toReg?_eq_some_iff]

/-- R74 (e): the slot `arg2` is read when it holds an operand of the class its type names. -/
theorem arg2?_eq_some_iff {v : Operand} :
    r.arg2? = some v ↔ r.arg2 = some v.toRaw ∧ r.arg2Type = some v.argType := by
  unfold arg2?
  split
  · next n hraw htype =>
    rw [hraw, htype]
    cases v with
    | reg q => cases hn : n.toReg? <;> simp [Operand.toRaw, Operand.argType, ← RegName.toReg?_eq_some_iff, hn]
    | const imm => cases n.toReg? <;> simp [Operand.toRaw]
  · next z hraw htype =>
    rw [hraw, htype]
    cases v with
    | reg q => simp [Operand.toRaw]
    | const imm => simpa [Operand.toRaw, Operand.argType] using inRange_and_ofInt_eq_iff
  · next hnotName hnotInt =>
    cases v with
    | reg q => simpa [Operand.toRaw, Operand.argType] using hnotName q.toName
    | const imm => simpa [Operand.toRaw, Operand.argType] using hnotInt imm.toInt

theorem noOut_iff : r.noOut = true ↔ r.out = none := Option.isNone_iff_eq_none

theorem noArg1_iff : r.noArg1 = true ↔ r.arg1 = none := Option.isNone_iff_eq_none

theorem noArg2_iff : r.noArg2 = true ↔ r.arg2 = none ∧ r.arg2Type = none := by
  simp [noArg2]

/-- A record is made of its slots. -/
theorem of_eq_iff {out arg1 : Option Reg} {arg2 : Option Operand} :
    Record.of r.opcode out arg1 arg2 = r ↔
      r.out = out.map Reg.toName ∧ r.arg1 = arg1.map Reg.toName ∧
      r.arg2 = arg2.map Operand.toRaw ∧ r.arg2Type = arg2.map Operand.argType := by
  cases r
  simp [Record.of, eq_comm]

/-! ### One format -/

variable {i : Instr}

theorem asA_eq_some_iff {mk : Reg → Reg → Operand → Instr} :
    r.asA mk = some i ↔
      ∃ o a v, o.writable = true ∧ Record.of r.opcode (some o) (some a) (some v) = r ∧ i = mk o a v := by
  have hslots : r.asA mk = some i ↔
      ∃ o a v, r.out? = some o ∧ r.arg1? = some a ∧ r.arg2? = some v ∧ i = mk o a v := by
    unfold asA
    cases r.out? <;> cases r.arg1? <;> cases r.arg2? <;> simp [eq_comm]
  simp [hslots, out?_eq_some_iff, arg1?_eq_some_iff, arg2?_eq_some_iff, of_eq_iff, and_assoc]

theorem asB_eq_some_iff {mk : Reg → Operand → Instr} :
    r.asB mk = some i ↔ ∃ a v, Record.of r.opcode none (some a) (some v) = r ∧ i = mk a v := by
  have hslots : r.asB mk = some i ↔
      ∃ a v, r.noOut = true ∧ r.arg1? = some a ∧ r.arg2? = some v ∧ i = mk a v := by
    unfold asB
    cases r.noOut <;> cases r.arg1? <;> cases r.arg2? <;> simp [eq_comm]
  simp [hslots, noOut_iff, arg1?_eq_some_iff, arg2?_eq_some_iff, of_eq_iff, and_assoc]

theorem asJ_eq_some_iff {mk : Operand → Instr} :
    r.asJ mk = some i ↔ ∃ v, Record.of r.opcode none none (some v) = r ∧ i = mk v := by
  have hslots : r.asJ mk = some i ↔ ∃ v, r.noOut = true ∧ r.noArg1 = true ∧ r.arg2? = some v ∧ i = mk v := by
    unfold asJ
    cases r.noOut <;> cases r.noArg1 <;> cases r.arg2? <;> simp [eq_comm]
  simp [hslots, noOut_iff, noArg1_iff, arg2?_eq_some_iff, of_eq_iff, and_assoc]

theorem asL_eq_some_iff {mk : Reg → Operand → Instr} :
    r.asL mk = some i ↔
      ∃ o v, o.writable = true ∧ Record.of r.opcode (some o) none (some v) = r ∧ i = mk o v := by
  have hslots : r.asL mk = some i ↔
      ∃ o v, r.out? = some o ∧ r.noArg1 = true ∧ r.arg2? = some v ∧ i = mk o v := by
    unfold asL
    cases r.out? <;> cases r.noArg1 <;> cases r.arg2? <;> simp [eq_comm]
  simp [hslots, out?_eq_some_iff, noArg1_iff, arg2?_eq_some_iff, of_eq_iff, and_assoc]

theorem asI_eq_some_iff {mk : Reg → Instr} :
    r.asI mk = some i ↔ ∃ o, o.writable = true ∧ Record.of r.opcode (some o) none none = r ∧ i = mk o := by
  have hslots : r.asI mk = some i ↔ ∃ o, r.out? = some o ∧ r.noArg1 = true ∧ r.noArg2 = true ∧ i = mk o := by
    unfold asI
    cases r.out? <;> cases r.noArg1 <;> cases r.noArg2 <;> simp [eq_comm]
  simp [hslots, out?_eq_some_iff, noArg1_iff, noArg2_iff, of_eq_iff, and_assoc]

theorem asN_eq_some_iff {j : Instr} : r.asN j = some i ↔ Record.of r.opcode none none none = r ∧ i = j := by
  simp [asN, noOut_iff, noArg1_iff, noArg2_iff, of_eq_iff, and_assoc, eq_comm (a := i)]

/-! ### The whole record -/

/-- R71 to R74: what a record reads as is well-formed and has this record, and only that is read. -/
theorem toInstr?_eq_some_iff : r.toInstr? = some i ↔ i.wellFormed = true ∧ i.toRecord = r := by
  constructor
  · intro h
    refine ⟨toInstr?_wellFormed h, ?_⟩
    obtain ⟨op, _, _, _, _⟩ := r
    cases op with
    | add | sub | div | mod | mul | cmp =>
      obtain ⟨o, a, v, -, hr, rfl⟩ := asA_eq_some_iff.mp h
      exact hr
    | je | jne | sv =>
      obtain ⟨a, v, hr, rfl⟩ := asB_eq_some_iff.mp h
      exact hr
    | jmp | out =>
      obtain ⟨v, hr, rfl⟩ := asJ_eq_some_iff.mp h
      exact hr
    | ld =>
      obtain ⟨o, v, -, hr, rfl⟩ := asL_eq_some_iff.mp h
      exact hr
    | in_ =>
      obtain ⟨o, -, hr, rfl⟩ := asI_eq_some_iff.mp h
      exact hr
    | iret | sti | cli | halt =>
      obtain ⟨hr, rfl⟩ := asN_eq_some_iff.mp h
      exact hr
  · rintro ⟨hwf, rfl⟩
    cases i with
    | add o a v | sub o a v | div o a v | mod o a v | mul o a v | cmp o a v =>
      exact asA_eq_some_iff.mpr ⟨o, a, v, hwf, rfl, rfl⟩
    | je a v | jne a v | sv a v => exact asB_eq_some_iff.mpr ⟨a, v, rfl, rfl⟩
    | jmp v | out v => exact asJ_eq_some_iff.mpr ⟨v, rfl, rfl⟩
    | ld o v => exact asL_eq_some_iff.mpr ⟨o, v, hwf, rfl, rfl⟩
    | in_ o => exact asI_eq_some_iff.mpr ⟨o, hwf, rfl, rfl⟩
    | iret | sti | cli | halt => rfl

end

end Record

/-- R70, R71: the record of an instruction has its opcode. -/
@[simp] theorem Instr.opcode_toRecord (i : Instr) : i.toRecord.opcode = i.opcode := by
  cases i <;> rfl

/-- Settles O5: the three parts are readings of `toInstr?_eq_some_iff`. -/
theorem recordsAndInstructionsAgree : Obligations.RecordsAndInstructionsAgree := by
  refine ⟨fun i hwf => ?_, fun r => ?_, fun r i h => ?_⟩
  · have hread : i.toRecord.toInstr? = some i := Record.toInstr?_eq_some_iff.mpr ⟨hwf, rfl⟩
    exact ⟨by rw [Record.wellFormed_eq_isSome_toInstr?, hread]; rfl, hread⟩
  · rw [Record.wellFormed_eq_isSome_toInstr?, Option.isSome_iff_exists]
  · obtain ⟨hwf, rfl⟩ := Record.toInstr?_eq_some_iff.mp h
    exact ⟨hwf, i.opcode_toRecord.symm, rfl⟩

end Sys2Proof
end

section
/-! PROOF of O3. R79's list and the decoder are compared field by field, for each format; a word that fails the list
then passes no decoder, and the cycle that fetched it faults (R80, R184). -/

namespace Sys2Proof

/-! ### Which numbers are accepted -/

/-- R72, R77: the format that R79's list reads from a number is that of the opcode the decoder reads from it. -/
theorem formatOfNumber_eq (n : BitVec 5) : formatOfNumber n.toNat = (opcodeOfNumber n).map Opcode.format := by
  revert n
  decide

/-- R78, R79: a register number names an operand register when it is at most 5. -/
theorem isSome_regOfNumber (n : BitVec 3) : (regOfNumber n).isSome = decide (n.toNat ≤ 5) := by
  revert n
  decide

/-- R79, the field `arg2` of a register operand: a word is at most 5 when it has zeros above bit 2 and its three low
bits are at most 5. -/
theorem toNat_le_five_iff (v : Word) :
    v.toNat ≤ 5 ↔ v.extractLsb' 3 29 = 0#29 ∧ (v.extractLsb' 0 3).toNat ≤ 5 := by
  have hhigh : (v.extractLsb' 3 29).toNat = v.toNat / 8 := by
    simp only [BitVec.extractLsb'_toNat, Nat.shiftRight_eq_div_pow]
    omega
  have hlow : (v.extractLsb' 0 3).toNat = v.toNat % 8 := rfl
  rw [← BitVec.toNat_inj, hhigh, hlow, BitVec.toNat_zero]
  omega

theorem toNat_beq_zero {n : Nat} (v : BitVec n) : (v.toNat == 0) = (v == 0#n) := by
  rw [Bool.eq_iff_iff]
  simp [← BitVec.toNat_inj]

/-! ### Which slots are accepted -/

section
variable (w : InstrWord)

theorem isOk_decodeOut :
    (decodeOut w).isOk = (decide (1 ≤ (fieldOut w).toNat) && decide ((fieldOut w).toNat ≤ 5)) := by
  unfold decodeOut
  generalize fieldOut w = n
  revert n
  decide

theorem isOk_decodeArg1 : (decodeArg1 w).isOk = decide ((fieldArg1 w).toNat ≤ 5) := by
  unfold decodeArg1
  rw [← isSome_regOfNumber]
  cases regOfNumber (fieldArg1 w) <;> rfl

/-- R76: the bit `T`. -/
theorem fieldT_eq_ofBool : fieldT w = BitVec.ofBool (w.getLsbD 36) := by
  apply BitVec.eq_of_getLsbD_eq
  intro i hi
  obtain rfl : i = 0 := Nat.lt_one_iff.mp hi
  simp [fieldT]

theorem isOk_decodeArg2 : (decodeArg2 w).isOk = (w.getLsbD 36 || decide ((fieldArg2 w).toNat ≤ 5)) := by
  unfold decodeArg2
  rw [fieldT_eq_ofBool]
  cases w.getLsbD 36 with
  | true => rfl
  | false =>
    simp only [toNat_le_five_iff, ← isSome_regOfNumber, Bool.decide_and]
    split
    · contradiction
    · split
      · next hzeros =>
        simp only [hzeros]
        cases regOfNumber ((fieldArg2 w).extractLsb' 0 3) <;> rfl
      · next hzeros =>
        simp only [hzeros]
        rfl

/-! ### Which formats are accepted -/

/-- Each slot of the format is accepted by its decoder. -/
def slotsDecode (f : Format) : Bool :=
  (!f.hasOut || (decodeOut w).isOk) && (!f.hasArg1 || (decodeArg1 w).isOk) && (!f.hasArg2 || (decodeArg2 w).isOk)

theorem isOk_decodeA (mk : Reg → Reg → Operand → Instr) : (decodeA w mk).isOk = slotsDecode w .A := by
  unfold decodeA slotsDecode
  cases decodeOut w <;> cases decodeArg1 w <;> cases decodeArg2 w <;> rfl

theorem isOk_decodeB (mk : Reg → Operand → Instr) : (decodeB w mk).isOk = slotsDecode w .B := by
  unfold decodeB slotsDecode
  cases decodeArg1 w <;> cases decodeArg2 w <;> rfl

theorem isOk_decodeJ (mk : Operand → Instr) : (decodeJ w mk).isOk = slotsDecode w .J := by
  unfold decodeJ slotsDecode
  cases decodeArg2 w <;> rfl

theorem isOk_decodeL (mk : Reg → Operand → Instr) : (decodeL w mk).isOk = slotsDecode w .L := by
  unfold decodeL slotsDecode
  cases decodeOut w <;> cases decodeArg2 w <;> rfl

theorem isOk_decodeI (mk : Reg → Instr) : (decodeI w mk).isOk = slotsDecode w .I := by
  unfold decodeI slotsDecode
  cases decodeOut w <;> rfl

theorem isOk_decodeSlots (op : Opcode) : (decodeSlots op w).isOk = slotsDecode w op.format := by
  cases op with
  | add | sub | div | mod | mul | cmp => exact isOk_decodeA w _
  | je | jne | sv => exact isOk_decodeB w _
  | jmp | out => exact isOk_decodeJ w _
  | ld => exact isOk_decodeL w _
  | in_ => exact isOk_decodeI w _
  | iret | sti | cli | halt => rfl

/-! ### Which words are accepted -/

/-- R79, the field `out`: zero where the format lacks it. -/
theorem out_field (present : Bool) :
    (if present then decide (1 ≤ (fieldOut w).toNat) && decide ((fieldOut w).toNat ≤ 5) else (fieldOut w).toNat == 0) =
      ((present || fieldOut w == 0#3) && (!present || (decodeOut w).isOk)) := by
  cases present with
  | true => exact (isOk_decodeOut w).symm
  | false => simp [toNat_beq_zero]

/-- R79, the field `arg1`: zero where the format lacks it. -/
theorem arg1_field (present : Bool) :
    (if present then decide ((fieldArg1 w).toNat ≤ 5) else (fieldArg1 w).toNat == 0) =
      ((present || fieldArg1 w == 0#3) && (!present || (decodeArg1 w).isOk)) := by
  cases present with
  | true => exact (isOk_decodeArg1 w).symm
  | false => simp [toNat_beq_zero]

/-- R79, the field `arg2` and its type bit: zero where the format lacks them. -/
theorem arg2_field (present : Bool) :
    (if present then w.getLsbD 36 || decide ((fieldArg2 w).toNat ≤ 5)
      else !w.getLsbD 36 && (fieldArg2 w).toNat == 0) =
      ((present || (fieldT w == 0#1 && fieldArg2 w == 0#32)) && (!present || (decodeArg2 w).isOk)) := by
  cases present with
  | true => exact (isOk_decodeArg2 w).symm
  | false =>
    rw [fieldT_eq_ofBool, ← toNat_beq_zero (fieldArg2 w)]
    cases w.getLsbD 36 <;> simp

/-- R79's list, put as the checks of the decoder. -/
theorem legalWord_of_format {f : Format} (hf : formatOfNumber (fieldOpcode w).toNat = some f) :
    legalWord w = (fieldReserved w == 0#4 && unusedFieldsZero f w && slotsDecode w f) := by
  rw [legalWord, ← fieldOpcode, hf]
  dsimp only
  rw [← fieldOut, ← fieldArg1, ← fieldReserved, ← fieldArg2, toNat_beq_zero (fieldReserved w), out_field, arg1_field,
    arg2_field, unusedFieldsZero, slotsDecode]
  ac_rfl

theorem isOk_decode_of_opcode {op : Opcode} (hop : opcodeOfNumber (fieldOpcode w) = some op) :
    (decode w).isOk = (fieldReserved w == 0#4 && unusedFieldsZero op.format w && slotsDecode w op.format) := by
  rw [← isOk_decodeSlots, decode, hop]
  by_cases hreserved : fieldReserved w = 0#4
  · cases hunused : unusedFieldsZero op.format w <;> simp [hreserved, hunused, Except.isOk, Except.toBool]
  · simp [hreserved, Except.isOk, Except.toBool]

theorem isOk_decode : (decode w).isOk = legalWord w := by
  cases hop : opcodeOfNumber (fieldOpcode w) with
  | none =>
    rw [decode, legalWord, ← fieldOpcode, formatOfNumber_eq, hop]
    rfl
  | some op =>
    have hformat : formatOfNumber (fieldOpcode w).toNat = some op.format := by simp [formatOfNumber_eq, hop]
    rw [isOk_decode_of_opcode w hop, legalWord_of_format w hformat]

end

/-- The decoder accepts exactly the legal words (R79). -/
theorem exists_decode_ok_iff {w : InstrWord} : (∃ i, decode w = .ok i) ↔ legalWord w = true := by
  rw [← isOk_decode]
  cases decode w <;> simp [Except.isOk, Except.toBool]

namespace Machine

/-! ### The cycle that fetches an illegal word -/

variable {s s1 : State}

/-- R80, R184: fetch and decode name the word and where it was fetched. -/
theorem fetchDecode_of_illegal {w : InstrWord} (hfetch : fetch s = .ok w) (hillegal : legalWord w = false) :
    fetchDecode s = .error (.illegalInstruction s.pc w) := by
  unfold fetchDecode
  rw [hfetch]
  cases hdecode : decode w with
  | error e => simp [hdecode]
  | ok i =>
    have hlegal : legalWord w = true := exists_decode_ok_iff.mp ⟨i, hdecode⟩
    simp [hlegal] at hillegal

theorem beginCycle_of_fetchDecode_error {f : Fault} (hbudget : s.budgetExceeded = false)
    (hcheck : interruptCheck s = .ok s1) (hfetch : fetchDecode s1 = .error f) : beginCycle s = .error f := by
  simp [beginCycle, hbudget, hcheck, hfetch]

theorem step_of_beginCycle_error {f : Fault} (hhalted : s.halted = false) (hbegin : beginCycle s = .error f) :
    step s = .fault f := by
  simp [step, hhalted, hbegin]

/-- Settles O3: the illegal word is what makes fetch and decode fail, which no later part of the cycle can mend. -/
theorem illegalWordsFault : Obligations.IllegalWordsFault :=
  ⟨fun _ => exists_decode_ok_iff, fun _ _ _ hhalted hbudget hcheck hfetch hillegal =>
    step_of_beginCycle_error hhalted
      (beginCycle_of_fetchDecode_error hbudget hcheck (fetchDecode_of_illegal hfetch hillegal))⟩

end Machine

end Sys2Proof
end

section
/-! PROOF of O12 and O13. The model's division is the library's `Int.tdiv`, so its sign, size and recomposition are
the library's facts; and the ALU's narrowed results are the operations of `BitVec` on the words. -/

namespace Sys2Proof.Machine

/-! ### Truncated division -/

/-- The model's quotient, a magnitude and a sign, is the library's. -/
theorem tdiv_eq_int_tdiv (a b : Int) : tdiv a b = a.tdiv b := by
  have hofNat (m : Nat) : ¬ (m : Int) < 0 := by omega
  cases a <;> cases b <;> simp [tdiv, Int.tdiv, hofNat, Int.negSucc_lt_zero]

theorem tmod_eq_int_tmod (a b : Int) : tmod a b = a.tmod b := by
  rw [tmod, tdiv_eq_int_tdiv, Int.tmod_def]

/-- Where two integers have one sign, both or neither are positive. -/
theorem pos_iff_pos_of_sign_eq {x y : Int} (h : x.sign = y.sign) : 0 < x ↔ 0 < y := by
  rw [← Int.sign_eq_one_iff_pos, h, Int.sign_eq_one_iff_pos]

theorem tmod_eq_zero_or_pos_iff (a b : Int) : tmod a b = 0 ∨ (0 < tmod a b ↔ 0 < a) := by
  have hsign := Int.sign_tmod a b
  rw [tmod_eq_int_tmod]
  split at hsign
  · exact .inl (Int.sign_eq_zero_iff_zero.mp hsign)
  · exact .inr (pos_iff_pos_of_sign_eq hsign)

theorem tdiv_eq_zero_or_pos_iff (a b : Int) : tdiv a b = 0 ∨ (0 < tdiv a b ↔ 0 < a * b) := by
  have hsign := Int.sign_tdiv a b
  rw [tdiv_eq_int_tdiv]
  split at hsign
  · exact .inl (Int.sign_eq_zero_iff_zero.mp hsign)
  · exact .inr (pos_iff_pos_of_sign_eq (hsign.trans (Int.sign_mul a b).symm))

/-- Settles O13: magnitude, recomposition and bound are those of `Int.tdiv` and `Int.tmod`. -/
theorem divisionTruncatesTowardZero : Obligations.DivisionTruncatesTowardZero := by
  intro a b hb
  refine ⟨?_, ?_, ?_, tmod_eq_zero_or_pos_iff a b, tdiv_eq_zero_or_pos_iff a b⟩
  · rw [tdiv_eq_int_tdiv]
    exact Int.natAbs_tdiv a b
  · rw [tdiv_eq_int_tdiv, tmod_eq_int_tmod, Int.mul_tdiv_add_tmod]
  · rw [tmod_eq_int_tmod, Int.natAbs_tmod]
    exact Nat.mod_lt _ (Int.natAbs_pos.mpr hb)

/-! ### The ALU -/

theorem wrap32_mul (l r : Word) : wrap32 (l.toInt * r.toInt) = l * r := by
  simp [wrap32, BitVec.ofInt_mul]

/-- The narrowing wraps the one quotient no word holds, `MIN / -1`, as `sdiv` does. -/
theorem wrap32_tdiv (l r : Word) : wrap32 (tdiv l.toInt r.toInt) = l.sdiv r := by
  apply BitVec.eq_of_toInt_eq
  rw [wrap32, BitVec.toInt_ofInt, tdiv_eq_int_tdiv, BitVec.toInt_sdiv]

theorem wrap32_tmod (l r : Word) : wrap32 (tmod l.toInt r.toInt) = l.srem r := by
  rw [wrap32, tmod_eq_int_tmod, ← BitVec.toInt_srem, BitVec.ofInt_toInt]

/-- R181: the ALU tests the divisor's signed value, the table its word. -/
theorem toInt_eq_zero_iff (r : Word) : r.toInt = 0 ↔ r = 0#32 := by
  rw [← BitVec.toInt_inj, BitVec.toInt_zero]

theorem alu_div (l r n : Word) :
    alu .div l r n = if r = 0#32 then .error .arithError else .ok (l.sdiv r) := by
  simp only [alu, toInt_eq_zero_iff, wrap32_tdiv]

theorem alu_mod (l r n : Word) :
    alu .mod l r n = if r = 0#32 then .error .arithError else .ok (l.srem r) := by
  simp only [alu, toInt_eq_zero_iff, wrap32_tmod]

/-- Settles O12, row by row: the narrowed result is the operation on words. -/
theorem aluFollowsItsTable : Obligations.AluFollowsItsTable := fun l r n =>
  ⟨congrArg Except.ok (wrap32_add l r), congrArg Except.ok (wrap32_sub l r), congrArg Except.ok (wrap32_mul l r),
    alu_div l r n, alu_mod l r n, congrArg Except.ok (wrap32_sub l r), congrArg Except.ok (wrap32_succ l),
    congrArg Except.ok (wrap32_pred l), rfl, rfl, rfl⟩

end Sys2Proof.Machine
end

section
/-! PROOF of O35, O37 and O38. An instruction's ticks stand in `exec_control`; its `pc` is said here in the same
way (`exec_pc`); and what the interrupt check does to tick and `pc` hangs on whether it takes the interrupt. -/

namespace Sys2Proof.Machine

/-! ### The pc after an instruction -/

theorem arith_pc {op : AluOp} {o a : Reg} {v : Operand} {s t : State} (ht : arith op o a v s = .next t) :
    t.pc = s.pc + 1#32 := by
  obtain ⟨x, -, rfl⟩ := arith_next ht
  exact nextPc_eq s.pc

theorem branch_pc (taken : Bool) (v : Operand) (s : State) :
    (branch taken v s).pc = if taken then s.val v else s.pc + 1#32 := by
  cases taken
  · exact nextPc_eq s.pc
  · rfl

/-- Every instruction that completes leaves the `pc` of the table. -/
theorem exec_pc {i : Instr} {s t : State} (ht : exec i s = .next t) : t.pc = pcAfter i s := by
  cases i with
  | add o a v => exact arith_pc (op := .add) ht
  | sub o a v => exact arith_pc (op := .sub) ht
  | div o a v => exact arith_pc (op := .div) ht
  | mod o a v => exact arith_pc (op := .mod) ht
  | mul o a v => exact arith_pc (op := .mul) ht
  | cmp o a v => exact arith_pc (op := .cmp) ht
  | je a v =>
    obtain rfl := Host.Outcome.next.inj ht
    simpa [pcAfter, zeroOf_eq] using branch_pc (zeroOf (s.readReg a)) v s
  | jne a v =>
    obtain rfl := Host.Outcome.next.inj ht
    simpa [pcAfter, zeroOf_eq] using branch_pc (!zeroOf (s.readReg a)) v s
  | jmp v =>
    obtain rfl := Host.Outcome.next.inj ht
    rfl
  | out v =>
    obtain rfl := Host.Outcome.next.inj ht
    exact nextPc_eq s.pc
  | in_ o =>
    obtain ⟨c, -, rfl⟩ := execIn_next ht
    exact nextPc_eq s.pc
  | ld o v =>
    obtain ⟨-, rfl⟩ := execLd_next ht
    exact nextPc_eq s.pc
  | sv a v =>
    obtain ⟨-, rfl⟩ := execSv_next ht
    exact nextPc_eq s.pc
  | iret =>
    obtain ⟨-, rfl⟩ := execIret_next ht
    rfl
  | sti =>
    obtain rfl := Host.Outcome.next.inj ht
    exact nextPc_eq s.pc
  | cli =>
    obtain rfl := Host.Outcome.next.inj ht
    exact nextPc_eq s.pc
  | halt =>
    obtain rfl := Host.Outcome.next.inj ht
    exact nextPc_eq s.pc

/-! ### The interrupt check -/

/-- The check that takes no interrupt moves at most the cursor; the one that does is the entry of the due request. -/
theorem interruptCheck_cases {s s1 : State} (h : interruptCheck s = .ok s1) :
    (s.entersHandler = false ∧ ∃ k, s1 = s.setCursor k) ∨
    (s.entersHandler = true ∧ ∃ e, s.request = some e ∧ interruptEntry e.char s = .ok s1) := by
  rcases interruptCheck_ok h with ⟨hin, rfl⟩ | ⟨-, hidle, rfl⟩ | ⟨hout, hon, e, hreq, hentry⟩
  · exact .inl ⟨by simp [State.entersHandler, hin], _, rfl⟩
  · exact .inl ⟨by rcases hidle with hoff | hnone <;> simp [State.entersHandler, *], s1.cursor, rfl⟩
  · exact .inr ⟨by simp [State.entersHandler, hout, hon, hreq], e, hreq, hentry⟩

/-- R195: the interrupt entry costs 4 ticks and is no cycle of its own. -/
theorem interruptCheck_counters {s s1 : State} (h : interruptCheck s = .ok s1) :
    s1.tick = s.tick + (if s.entersHandler then 4 else 0) ∧ s1.instrCounter = s.instrCounter := by
  rcases interruptCheck_cases h with ⟨hno, k, rfl⟩ | ⟨hyes, e, -, hentry⟩
  · simp [hno]
  · obtain ⟨-, rfl⟩ := interruptEntry_ok hentry
    simp [hyes]

/-- Outside a handler and with nothing due, the check does nothing. -/
theorem interruptCheck_idle {s s1 : State} (h : interruptCheck s = .ok s1) (hreq : s.request = none)
    (hout : s.inInterrupt = false) : s1 = s := by
  rcases interruptCheck_ok h with ⟨hin, -⟩ | ⟨-, -, rfl⟩ | ⟨-, -, e, hdue, -⟩
  · simp [hout] at hin
  · rfl
  · simp [hreq] at hdue

/-! ### The statements -/

/-- R107: an instruction costs 1 or 2 ticks. -/
theorem tickCost_eq_one_or_two (i : Instr) (s : State) : tickCost i s = 1 ∨ tickCost i s = 2 := by
  unfold tickCost
  split
  case h_1 => split <;> simp
  case h_2 => split <;> simp
  all_goals simp

/-- Settles O37: a cycle's ticks are the 0 or 4 of the check and the 1 or 2 of the instruction. -/
theorem ticksFollowTheTable : Obligations.TicksFollowTheTable := by
  refine ⟨fun i s t ht => ⟨(exec_control ht).tick, (exec_control ht).instrCounter⟩,
    fun _ _ => interruptCheck_counters, fun s t hrun ht => ?_⟩
  rcases step_next ht with ⟨hhalted, -⟩ | ⟨-, i, s1, hbegin, hexec⟩
  · simp [hrun] at hhalted
  · obtain ⟨-, hcheck, -⟩ := beginCycle_ok hbegin
    obtain ⟨hentry, hcount⟩ := interruptCheck_counters hcheck
    have heffect := exec_control hexec
    refine ⟨hcount ▸ heffect.instrCounter, ?_⟩
    have hcost := tickCost_eq_one_or_two i s1
    have htick := heffect.tick
    split at hentry <;> omega

/-- Settles O38: a check that takes no interrupt writes the cursor alone. -/
theorem pcFollowsTheTable : Obligations.PcFollowsTheTable := by
  refine ⟨fun _ _ _ => exec_pc, fun s s1 hcheck hno => ?_⟩
  rcases interruptCheck_cases hcheck with ⟨-, k, rfl⟩ | ⟨hyes, -⟩
  · rfl
  · simp [hno] at hyes

/-- A cycle that begins runs its instruction. -/
theorem step_of_beginCycle {s s1 : State} {i : Instr} (hrun : s.halted = false)
    (hbegin : beginCycle s = .ok (i, s1)) : step s = exec i s1 := by
  simp [step, hrun, hbegin]

theorem beginCycle_of_decode {s s1 : State} {w : InstrWord} {i : Instr} (hbudget : s.budgetExceeded = false)
    (hcheck : interruptCheck s = .ok s1) (hfetch : fetch s1 = .ok w) (hdecode : decode w = .ok i) :
    beginCycle s = .ok (i, s1) := by
  simp [beginCycle, fetchDecode, hbudget, hcheck, hfetch, hdecode]

/-- Settles O35: nothing comes between the decoded instruction and its execution. -/
theorem stepRunsDecodedInstruction : Obligations.StepRunsDecodedInstruction :=
  fun _ _ _ _ hrun hbudget hcheck hfetch hdecode =>
    ⟨step_of_beginCycle hrun (beginCycle_of_decode hbudget hcheck hfetch hdecode), interruptCheck_idle hcheck⟩

end Sys2Proof.Machine
end

section
/-! PROOF of O52, O53 and O54. Each tick of R121 selects anew what its signals read, so what it does to the
architectural state does not depend on the latches it finds. `Implements` says this of a tick, a row or a whole
sequence, and names the function on states it amounts to; sequences compose, and the function of each row is compared
with the instruction's rule. -/

namespace Sys2Proof.Machine

/-! ### What a sequence amounts to, whatever its latches hold -/

/-- From any value of the latches, `m` does `φ` to the architectural state. -/
def Implements (m : DataPath → Except Fault DataPath) (φ : State → Except Fault State) : Prop :=
  ∀ d, (m d).map DataPath.arch = φ d.arch

theorem Implements.bind {m m' : DataPath → Except Fault DataPath} {φ φ' : State → Except Fault State}
    (h : Implements m φ) (h' : Implements m' φ') :
    Implements (fun d => (m d).bind m') (fun s => (φ s).bind φ') := by
  intro d
  have hd := h d
  show ((m d).bind m').map DataPath.arch = (φ d.arch).bind φ'
  rw [← hd]
  cases m d with
  | error f => rfl
  | ok d' => exact h' d'

theorem Implements.ite {p : State → Prop} [DecidablePred p] {m m' : DataPath → Except Fault DataPath}
    {φ φ' : State → Except Fault State} (h : Implements m φ) (h' : Implements m' φ') :
    Implements (fun d => if p d.arch then m d else m' d) (fun s => if p s then φ s else φ' s) := by
  intro d
  by_cases hp : p d.arch
  · simpa [hp] using h d
  · simpa [hp] using h' d

theorem Implements.congr {m : DataPath → Except Fault DataPath} {φ φ' : State → Except Fault State}
    (h : Implements m φ) (heq : ∀ s, φ s = φ' s) : Implements m φ' := fun d => (h d).trans (heq d.arch)

theorem cuWrite_implements (f : State → State) : Implements (cuWrite f) (fun s => .ok (f s)) := fun _ => rfl

/-! ### Signals one after another -/

section
variable (g : DataPath → Except Fault DataPath) (gs : List (DataPath → Except Fault DataPath)) (d : DataPath)

@[simp] theorem runSignals_nil : runSignals [] d = .ok d := rfl

@[simp] theorem runSignals_cons : runSignals (g :: gs) d = (g d).bind (runSignals gs) := by
  unfold runSignals
  cases g d <;> rfl

/-- The state of the DataPath in which the signals of a tick begin: nothing is on the output bus path. -/
def DataPath.newTick : DataPath := { d with latches := { d.latches with outPath := none } }

/-- The DataPath at the end of a tick. -/
def DataPath.ticked : DataPath := { d with arch := d.arch.addTicks 1 }

@[simp] theorem DataPath.newTick_arch : d.newTick.arch = d.arch := rfl
@[simp] theorem DataPath.newTick_outPath : d.newTick.latches.outPath = none := rfl
@[simp] theorem DataPath.ticked_arch : d.ticked.arch = d.arch.addTicks 1 := rfl

@[simp] theorem microTick_eq : microTick gs d = (runSignals gs d.newTick).map DataPath.ticked := by
  unfold microTick DataPath.newTick
  split <;> next hrun => rw [hrun]; rfl

end

/-! ### What each signal leaves -/

section
variable (d : DataPath)

/-- What latching `x` into the port selected as output writes (R113). -/
def State.writePort (s : State) (p : Port) (x : Word) : State :=
  match p with
  | .reg r => s.writeReg r x
  | .pc => s.setPc x

@[simp] theorem State.writePort_reg (s : State) (r : Reg) (x : Word) : s.writePort (.reg r) x = s.writeReg r x := rfl
@[simp] theorem State.writePort_pc (s : State) (x : Word) : s.writePort .pc x = s.setPc x := rfl
@[simp] theorem State.portValue_reg (s : State) (r : Reg) : s.portValue (.reg r) = s.readReg r := rfl
@[simp] theorem State.portValue_pc (s : State) : s.portValue .pc = s.pc := rfl

/-- After R110 and R111: the operands as selected, and an immediate at the right input. -/
def DataPath.latched (op1 op2 out : Option Port) (c : Option Word) : DataPath :=
  { d with latches := { d.latches with
    op1 := op1.getD d.latches.op1
    op2 := op2.getD d.latches.op2
    out := out.getD d.latches.out
    left := d.drive op1 d.latches.left
    right := c.getD (d.drive op2 d.latches.right) } }

/-- After R112, for an operation other than `NOP`. -/
def DataPath.computed (x : Word) : DataPath where
  arch := d.arch.setZeroFlag (zeroOf x)
  latches := { d.latches with aluBus := x }

/-- After R114 or R116: the value is on the output bus path. -/
def DataPath.bussed (x : Word) : DataPath := { d with latches := { d.latches with outPath := some x } }

/-- After a signal that writes architectural state. -/
def DataPath.withArch (s : State) : DataPath := { d with arch := s }

section
variable (op1 op2 out : Option Port) (c : Option Word) (p : Port) (v : Operand) (x : Word) (s : State)

@[simp] theorem DataPath.latched_arch : (d.latched op1 op2 out c).arch = d.arch := rfl
@[simp] theorem DataPath.latched_op2 : (d.latched op1 (some p) out c).latches.op2 = p := rfl
@[simp] theorem DataPath.latched_out : (d.latched op1 op2 (some p) c).latches.out = p := rfl
@[simp] theorem DataPath.latched_left : (d.latched (some p) op2 out c).latches.left = d.arch.portValue p := rfl
@[simp] theorem DataPath.latched_right_const : (d.latched op1 op2 out (some x)).latches.right = x := rfl
@[simp] theorem DataPath.latched_outPath : (d.latched op1 op2 out c).latches.outPath = d.latches.outPath := rfl

/-- R105: register or immediate, the right input holds the operand's value. -/
@[simp] theorem DataPath.latched_right_operand :
    (d.latched op1 (Operand.port v) out (Operand.imm v)).latches.right = d.arch.val v := by
  cases v <;> rfl

@[simp] theorem DataPath.computed_arch : (d.computed x).arch = d.arch.setZeroFlag (zeroOf x) := rfl
@[simp] theorem DataPath.computed_op2 : (d.computed x).latches.op2 = d.latches.op2 := rfl
@[simp] theorem DataPath.computed_out : (d.computed x).latches.out = d.latches.out := rfl
@[simp] theorem DataPath.computed_aluBus : (d.computed x).latches.aluBus = x := rfl
@[simp] theorem DataPath.computed_outputBus : (d.computed x).outputBus = d.latches.outPath.getD x := rfl

@[simp] theorem DataPath.bussed_arch : (d.bussed x).arch = d.arch := rfl
@[simp] theorem DataPath.bussed_out : (d.bussed x).latches.out = d.latches.out := rfl
@[simp] theorem DataPath.bussed_outputBus : (d.bussed x).outputBus = x := rfl

@[simp] theorem DataPath.withArch_arch : (d.withArch s).arch = s := rfl

end

@[simp] theorem selectOperands_eq (op1 op2 out : Option Port) :
    selectOperands op1 op2 out d = .ok (d.latched op1 op2 out none) := rfl

@[simp] theorem latchAlu_latched (op1 op2 out : Option Port) (c : Option Word) :
    latchAlu c (d.latched op1 op2 out none) = .ok (d.latched op1 op2 out c) := by
  cases c <;> rfl

/-- What the operation `NOP` would leave on the bus matters to no other operation. -/
theorem alu_nopBus {op : AluOp} (hop : op ≠ .nop) (l r n n' : Word) : alu op l r n = alu op l r n' := by
  cases op
  case nop => exact absurd rfl hop
  all_goals rfl

theorem executeAlu_eq {op : AluOp} (hop : op ≠ .nop) :
    executeAlu op d = (alu op d.latches.left d.latches.right 0#32).map d.computed := by
  unfold executeAlu
  rw [alu_nopBus hop _ _ _ 0#32]
  cases alu op d.latches.left d.latches.right 0#32 <;> simp [Except.map, DataPath.computed, hop]

@[simp] theorem executeAlu_left : executeAlu .left d = .ok (d.computed d.latches.left) := rfl
@[simp] theorem executeAlu_right : executeAlu .right d = .ok (d.computed d.latches.right) := rfl
@[simp] theorem executeAlu_inc : executeAlu .inc d = .ok (d.computed (d.latches.left + 1#32)) := by
  simp [executeAlu_eq, alu, wrap32_succ, Except.map]
@[simp] theorem executeAlu_dec : executeAlu .dec d = .ok (d.computed (d.latches.left - 1#32)) := by
  simp [executeAlu_eq, alu, wrap32_pred, Except.map]

@[simp] theorem latchOutput_eq : latchOutput d = .ok (d.withArch (d.arch.writePort d.latches.out d.outputBus)) := by
  unfold latchOutput
  split <;> simp [DataPath.withArch, *]

theorem readMemory_eq : readMemory d = (memRead d.arch d.latches.aluBus).map d.bussed := by
  unfold readMemory
  cases memRead d.arch d.latches.aluBus <;> rfl

theorem writeMemory_eq :
    writeMemory d = (memWrite d.arch d.latches.aluBus (d.arch.portValue d.latches.op2)).map d.withArch := by
  unfold writeMemory
  cases memWrite d.arch d.latches.aluBus (d.arch.portValue d.latches.op2) <;> rfl

@[simp] theorem inputFromDevice_eq (c : Word) : inputFromDevice c d = .ok (d.bussed c) := rfl
@[simp] theorem printToDevice_eq : printToDevice d = .ok (d.withArch (d.arch.emit d.latches.aluBus)) := rfl
@[simp] theorem cuWrite_eq (f : State → State) : cuWrite f d = .ok (d.withArch (f d.arch)) := rfl

end

@[simp] theorem memRead_setZeroFlag (s : State) (b : Bool) (a : Word) :
    memRead (s.setZeroFlag b) a = memRead s a := rfl

/-- An update that neither resizes nor writes data memory commutes with a write to it. -/
theorem memWrite_map {update : State → State} {s : State} {v : Word} (hsize : (update s).dmemSize = s.dmemSize)
    (hwrite : ∀ k, (update s).writeCell k v = update (s.writeCell k v)) (a : Word) :
    memWrite (update s) a v = (memWrite s a v).map update := by
  unfold memWrite
  rw [State.validAddr_congr hsize, hwrite]
  split <;> rfl

@[simp] theorem memWrite_setZeroFlag (s : State) (b : Bool) (a v : Word) :
    memWrite (s.setZeroFlag b) a v = (memWrite s a v).map (·.setZeroFlag b) :=
  memWrite_map (update := (·.setZeroFlag b)) rfl (fun _ => rfl) a

@[simp] theorem memWrite_addTicks (s : State) (n : Nat) (a v : Word) :
    memWrite (s.addTicks n) a v = (memWrite s a v).map (·.addTicks n) :=
  memWrite_map (update := (·.addTicks n)) rfl (fun _ => rfl) a

@[simp] theorem fetchIncrement_eq (s : State) : fetchIncrement s = s.setPc (nextPc s.pc) := rfl

@[simp] theorem State.val_setZeroFlag (s : State) (b : Bool) (v : Operand) : (s.setZeroFlag b).val v = s.val v :=
  State.val_congr (s.readReg_setZeroFlag b) v

@[simp] theorem State.val_addTicks (s : State) (n : Nat) (v : Operand) : (s.addTicks n).val v = s.val v :=
  State.val_congr (s.readReg_addTicks n) v

/-! ### The rows of R121 -/

theorem microArith_implements {op : AluOp} (hop : op ≠ .nop) (o a : Reg) (v : Operand) :
    Implements (microArith op o a v) fun s =>
      (alu op (s.readReg a) (s.val v) 0#32).map fun x =>
        (((s.setZeroFlag (zeroOf x)).writeReg o x).setPc (nextPc s.pc)).addTicks 1 := by
  intro d
  cases halu : alu op (d.arch.readReg a) (d.arch.val v) 0#32 <;>
    simp [microArith, executeAlu_eq _ hop, halu, Except.bind, Except.map]

theorem microJump_implements (v : Operand) :
    Implements (microJump v) fun s =>
      .ok (((s.setZeroFlag (zeroOf (s.val v))).setPc (s.val v)).addTicks 1) := by
  intro d
  simp [microJump, Except.bind, Except.map]

/-- The first tick of a branch. -/
def branchTest (a : Reg) : DataPath → Except Fault DataPath :=
  microTick [selectOperands (some (.reg a)) none none, executeAlu .left]

theorem microBranch_eq_bind (takenOnZero : Bool) (a : Reg) (v : Operand) :
    microBranch takenOnZero a v = fun d => (branchTest a d).bind fun d' =>
      if d'.arch.zeroFlag = takenOnZero then microJump v d' else cuWrite fetchIncrement d' := by
  funext d
  unfold microBranch branchTest
  split <;> next hrun => rw [hrun]; rfl

/-- The first tick of a branch puts the register's zero test into `zero_flag`. -/
theorem branchTest_implements (a : Reg) :
    Implements (branchTest a) fun s => .ok ((s.setZeroFlag (zeroOf (s.readReg a))).addTicks 1) := by
  intro d
  simp [branchTest, Except.bind, Except.map]

theorem microBranch_implements (takenOnZero : Bool) (a : Reg) (v : Operand) :
    Implements (microBranch takenOnZero a v) fun s =>
      .ok (if zeroOf (s.readReg a) = takenOnZero
        then ((s.setZeroFlag (zeroOf (s.val v))).setPc (s.val v)).addTicks 2
        else ((s.setZeroFlag (zeroOf (s.readReg a))).setPc (nextPc s.pc)).addTicks 1) := by
  have hsecond := (microJump_implements v).ite (p := fun s => s.zeroFlag = takenOnZero)
    (cuWrite_implements fetchIncrement)
  rw [microBranch_eq_bind]
  refine ((branchTest_implements a).bind hsecond).congr fun s => ?_
  simp only [Except.bind, State.addTicks_zeroFlag, State.setZeroFlag_zeroFlag, State.val_addTicks,
    State.val_setZeroFlag]
  split <;> rfl

theorem microOut_implements (v : Operand) :
    Implements (microInstr (.out v)) fun s =>
      .ok ((((s.setZeroFlag (zeroOf (s.val v))).emit (s.val v)).setPc (nextPc s.pc)).addTicks 1) := by
  intro d
  simp [microInstr, Except.bind, Except.map]

theorem microLd_implements (o : Reg) (v : Operand) :
    Implements (microInstr (.ld o v)) fun s =>
      (memRead s (s.val v)).map fun x =>
        (((s.setZeroFlag (zeroOf (s.val v))).writeReg o x).setPc (nextPc s.pc)).addTicks 1 := by
  intro d
  cases hread : memRead d.arch (d.arch.val v) <;>
    simp [microInstr, readMemory_eq, hread, Except.bind, Except.map]

theorem microSv_implements (a : Reg) (v : Operand) :
    Implements (microSv a v) fun s =>
      (memWrite s (s.val v) (s.readReg a)).map fun t =>
        ((t.setZeroFlag (zeroOf (s.val v))).setPc (nextPc s.pc)).addTicks 1 := by
  intro d
  cases hwrite : memWrite d.arch (d.arch.val v) (d.arch.readReg a) with
  | error f => cases v <;> simp_all [microSv, writeMemory_eq, Except.bind, Except.map, State.val]
  | ok t =>
    obtain ⟨-, rfl⟩ := memWrite_ok hwrite
    cases v <;> simp_all [microSv, writeMemory_eq, Except.bind, Except.map, State.val]

theorem microIn_implements (o : Reg) :
    Implements (microIn o) fun s =>
      (s.inputLatch.elim (Except.error Fault.ioError) Except.ok).map fun c =>
        (((s.writeReg o c).setLatch none).setPc (nextPc s.pc)).addTicks 1 := by
  intro d
  cases hlatch : d.arch.inputLatch <;> simp [microIn, hlatch, Except.bind, Except.map]

/-- The first tick of `iret`. -/
def returnPop : DataPath → Except Fault DataPath :=
  microTick [selectOperands (some (.reg .sp)) none (some .pc), executeAlu .left, readMemory, latchOutput]

/-- The second tick of `iret`. -/
def returnIncrement : DataPath → Except Fault DataPath :=
  microTick [selectOperands (some (.reg .sp)) none (some (.reg .sp)), executeAlu .inc, latchOutput,
    cuWrite fun s => s.setInterrupts true false]

theorem microIret_eq_bind : microIret = fun d => (returnPop d).bind returnIncrement := by
  funext d
  unfold microIret returnPop
  split <;> next hrun => rw [hrun]; rfl

theorem returnPop_implements :
    Implements returnPop fun s =>
      (memRead s s.sp).map fun x => ((s.setZeroFlag (zeroOf s.sp)).setPc x).addTicks 1 := by
  intro d
  cases hread : memRead d.arch d.arch.sp <;>
    simp [returnPop, readMemory_eq, State.readReg, hread, Except.bind, Except.map]

/-- The word popped in the first tick has left the output bus path, so the incremented pointer is latched. -/
theorem returnIncrement_implements :
    Implements returnIncrement fun s =>
      .ok ((((s.setZeroFlag (zeroOf (s.sp + 1#32))).writeReg .sp (s.sp + 1#32)).setInterrupts true
        false).addTicks 1) := by
  intro d
  simp [returnIncrement, State.readReg, Except.bind, Except.map]

theorem microIret_implements :
    Implements microIret fun s =>
      (memRead s s.sp).map fun x =>
        ((((s.setZeroFlag (zeroOf (s.sp + 1#32))).writeReg .sp (s.sp + 1#32)).setInterrupts true false).setPc
          x).addTicks 2 := by
  rw [microIret_eq_bind]
  refine (returnPop_implements.bind returnIncrement_implements).congr fun s => ?_
  cases memRead s s.sp <;> rfl

/-- A row of the control unit's flag writes, with `NOP` at the ALU. -/
theorem flagWrite_implements (f : State → State) (hpc : ∀ s, (f s).pc = s.pc) :
    Implements (microTick [cuWrite f, executeAlu .nop, cuWrite fetchIncrement]) fun s =>
      .ok (((f s).freeFlag.setPc (nextPc s.pc)).addTicks 1) := by
  intro d
  simp [executeAlu, alu, hpc, Except.bind, Except.map]

/-! ### The rules of the instructions -/

/-- The outcome of an instruction that answers a next state or a fault. -/
def outcomeOf : Except Fault State → Host.Outcome State Fault Refusal
  | .error f => .fault f
  | .ok t => .next t

theorem arith_eq (op : AluOp) (o a : Reg) (v : Operand) (s : State) :
    arith op o a v s = outcomeOf ((alu op (s.readReg a) (s.val v) 0#32).map fun x =>
      ((s.writeReg o x).setZeroFlag (zeroOf x)).retire (nextPc s.pc) 1) := by
  unfold arith
  cases alu op (s.readReg a) (s.val v) 0#32 <;> rfl

theorem execLd_eq (o : Reg) (v : Operand) (s : State) :
    execLd o v s = outcomeOf ((memRead s (s.val v)).map fun x =>
      (s.writeReg o x).freeFlag.retire (nextPc s.pc) 1) := by
  unfold execLd
  cases memRead s (s.val v) <;> rfl

theorem execSv_eq (a : Reg) (v : Operand) (s : State) :
    execSv a v s = outcomeOf ((memWrite s (s.val v) (s.readReg a)).map fun t =>
      t.freeFlag.retire (nextPc s.pc) 1) := by
  unfold execSv
  cases memWrite s (s.val v) (s.readReg a) <;> rfl

theorem execIn_eq (o : Reg) (s : State) :
    execIn o s = outcomeOf ((s.inputLatch.elim (Except.error Fault.ioError) Except.ok).map fun c =>
      ((s.writeReg o c).setLatch none).freeFlag.retire (nextPc s.pc) 1) := by
  unfold execIn
  cases s.inputLatch <;> rfl

theorem execIret_eq (s : State) :
    execIret s = outcomeOf ((memRead s s.sp).map fun x =>
      ((s.writeReg .sp (s.sp + 1#32)).setInterrupts true false).freeFlag.retire x 2) := by
  unfold execIret interruptReturn
  rw [wrap32_succ]
  cases memRead s s.sp <;> rfl

/-! ### Rows against rules -/

section
variable (i : Instr) {erase : State → State}

/-- A row refines a rule where both are functions of the same access and leave, cycle counted, the same state. -/
theorem microExec_agrees {α : Type} {r : State → Except Fault α} {f g : State → α → State}
    (hmicro : Implements (microInstr i) fun s => (r s).map (f s))
    (hexec : ∀ s, exec i s = outcomeOf ((r s).map (g s)))
    (herase : ∀ s x, erase (countCycle (f s x)) = erase (g s x)) (d : DataPath) :
    MicroAgrees erase (microExec i d) (exec i d.arch) := by
  have hd := hmicro d
  rw [hexec]
  unfold microExec
  cases hr : r d.arch <;> cases hm : microInstr i d <;>
    simp_all [Except.map, outcomeOf, MicroAgrees]

/-- The same for a rule that cannot fault. -/
theorem microExec_agrees_of_ok {f : State → State} (hmicro : Implements (microInstr i) fun s => .ok (f s))
    (hexec : ∀ s, ∃ t, exec i s = .next t ∧ erase (countCycle (f s)) = erase t) (d : DataPath) :
    MicroAgrees erase (microExec i d) (exec i d.arch) := by
  obtain ⟨t, hnext, herase⟩ := hexec d.arch
  have hd := hmicro d
  rw [hnext]
  unfold microExec
  cases hm : microInstr i d <;> simp_all [Except.map, MicroAgrees]

end

/-- What agrees wholly agrees up to anything forgotten. -/
theorem MicroAgrees.of_id {m : Except Fault DataPath} {o : Host.Outcome State Fault Refusal}
    (h : MicroAgrees id m o) (erase : State → State) : MicroAgrees erase m o := by
  cases m <;> cases o <;> simp_all [MicroAgrees]

theorem microArith_agrees (i : Instr) {op : AluOp} {o a : Reg} {v : Operand} (hop : op ≠ .nop)
    (hmicro : microInstr i = microArith op o a v) (hexec : ∀ s, exec i s = arith op o a v s) (d : DataPath) :
    MicroAgrees id (microExec i d) (exec i d.arch) := by
  refine microExec_agrees i (hmicro ▸ microArith_implements hop o a v)
    (fun s => (hexec s).trans (arith_eq op o a v s)) (fun s x => ?_) d
  cases o <;> rfl

/-- The rows of the six arithmetic instructions leave the very state of the rule, `zero_flag` included. -/
theorem microExec_agrees_arith (i : Instr) (d : DataPath)
    (hi : i.opcode = .add ∨ i.opcode = .sub ∨ i.opcode = .mul ∨ i.opcode = .div ∨ i.opcode = .mod ∨
      i.opcode = .cmp) :
    MicroAgrees id (microExec i d) (exec i d.arch) := by
  cases i with
  | add o a v => exact microArith_agrees (.add o a v) (by decide) rfl (fun _ => rfl) d
  | sub o a v => exact microArith_agrees (.sub o a v) (by decide) rfl (fun _ => rfl) d
  | div o a v => exact microArith_agrees (.div o a v) (by decide) rfl (fun _ => rfl) d
  | mod o a v => exact microArith_agrees (.mod o a v) (by decide) rfl (fun _ => rfl) d
  | mul o a v => exact microArith_agrees (.mul o a v) (by decide) rfl (fun _ => rfl) d
  | cmp o a v => exact microArith_agrees (.cmp o a v) (by decide) rfl (fun _ => rfl) d
  | _ => simp [Instr.opcode] at hi

/-- Every row leaves the state of its rule up to `zero_flag`. -/
theorem microExec_agrees_eraseFlag (i : Instr) (d : DataPath) :
    MicroAgrees State.eraseFlag (microExec i d) (exec i d.arch) := by
  cases i with
  | je a v =>
    refine microExec_agrees_of_ok (.je a v) (microBranch_implements true a v) (fun s => ⟨_, rfl, ?_⟩) d
    cases zeroOf (s.readReg a) <;> rfl
  | jne a v =>
    refine microExec_agrees_of_ok (.jne a v) (microBranch_implements false a v) (fun s => ⟨_, rfl, ?_⟩) d
    cases zeroOf (s.readReg a) <;> rfl
  | jmp v => exact microExec_agrees_of_ok (.jmp v) (microJump_implements v) (fun _ => ⟨_, rfl, rfl⟩) d
  | out v => exact microExec_agrees_of_ok (.out v) (microOut_implements v) (fun _ => ⟨_, rfl, rfl⟩) d
  | in_ o =>
    refine microExec_agrees (.in_ o) (microIn_implements o) (execIn_eq o) (fun _ _ => ?_) d
    cases o <;> rfl
  | ld o v =>
    refine microExec_agrees (.ld o v) (microLd_implements o v) (execLd_eq o v) (fun _ _ => ?_) d
    cases o <;> rfl
  | sv a v => exact microExec_agrees (.sv a v) (microSv_implements a v) (execSv_eq a v) (fun _ _ => rfl) d
  | iret => exact microExec_agrees .iret microIret_implements execIret_eq (fun _ _ => rfl) d
  | sti =>
    have hmicro := flagWrite_implements (·.setEnabled true) fun _ => rfl
    exact microExec_agrees_of_ok .sti hmicro (fun _ => ⟨_, rfl, rfl⟩) d
  | cli =>
    have hmicro := flagWrite_implements (·.setEnabled false) fun _ => rfl
    exact microExec_agrees_of_ok .cli hmicro (fun _ => ⟨_, rfl, rfl⟩) d
  | halt =>
    have hmicro := flagWrite_implements State.setHalted fun _ => rfl
    exact microExec_agrees_of_ok .halt hmicro (fun _ => ⟨_, rfl, rfl⟩) d
  | _ => exact (microExec_agrees_arith _ d (by simp [Instr.opcode])).of_id _

/-- Settles O52: each row makes the access its rule makes, if any, and leaves the same state; only the rows outside
arithmetic leave another `zero_flag`. -/
theorem microSequencesRefineInstructions : Obligations.MicroSequencesRefineInstructions :=
  ⟨microExec_agrees_eraseFlag, microExec_agrees_arith⟩

/-! ### The interrupt entry -/

theorem Implements.nil : Implements (runSignals []) .ok := fun _ => rfl

theorem Implements.cons {g : DataPath → Except Fault DataPath} {gs : List (DataPath → Except Fault DataPath)}
    {φ ψ : State → Except Fault State} (h : Implements g φ) (h' : Implements (runSignals gs) ψ) :
    Implements (runSignals (g :: gs)) fun s => (φ s).bind ψ := by
  intro d
  rw [runSignals_cons]
  exact h.bind h' d

theorem entryDecrement_implements :
    Implements (microTick [selectOperands (some (.reg .sp)) none (some (.reg .sp)), executeAlu .dec, latchOutput])
      fun s => .ok (((s.setZeroFlag (zeroOf (s.sp - 1#32))).writeReg .sp (s.sp - 1#32)).addTicks 1) := by
  intro d
  simp [State.readReg, Except.bind, Except.map]

theorem entryPush_implements :
    Implements (microTick [selectOperands (some (.reg .sp)) (some .pc) none, executeAlu .left, writeMemory])
      fun s => (memWrite s s.sp s.pc).map fun t => (t.setZeroFlag (zeroOf s.sp)).addTicks 1 := by
  intro d
  cases hwrite : memWrite d.arch d.arch.sp d.arch.pc <;>
    simp [writeMemory_eq, State.readReg, hwrite, Except.bind, Except.map]

theorem entryVector_implements :
    Implements (microTick [selectOperands none none (some .pc), latchAlu (some 0#32), executeAlu .right, readMemory,
      latchOutput])
      fun s => (memRead s 0#32).map fun x => ((s.setZeroFlag (zeroOf 0#32)).setPc x).addTicks 1 := by
  intro d
  cases hread : memRead d.arch 0#32 <;>
    simp [readMemory_eq, hread, Except.bind, Except.map]

theorem entryFlags_implements (c : Word) :
    Implements (microTick [cuWrite fun s => (s.setInterrupts false true).setLatch (some c)])
      fun s => .ok (((s.setInterrupts false true).setLatch (some c)).addTicks 1) := by
  intro d
  simp [Except.bind, Except.map]

/-- R195: the state in which the entry pushes: the entry consumed, the stack pointer decremented. -/
def State.entering (s : State) : State := (s.setCursor (s.cursor + 1)).writeReg .sp (s.sp - 1#32)

theorem microEntry_implements (c : Word) :
    Implements (microEntry c) fun s =>
      (memWrite s.entering s.entering.sp s.pc).bind fun t => (memRead t 0#32).map fun x =>
        ((((t.setPc x).setInterrupts false true).setLatch (some c)).setZeroFlag (zeroOf 0#32)).addTicks 4 := by
  have hticks := (cuWrite_implements fun s => s.setCursor (s.cursor + 1)).cons
    (entryDecrement_implements.cons (entryPush_implements.cons
      (entryVector_implements.cons ((entryFlags_implements c).cons .nil))))
  refine Implements.congr hticks fun s => ?_
  change ((memWrite ((s.entering.setZeroFlag _).addTicks 1) s.entering.sp s.pc).map _).bind _ = _
  rw [memWrite_addTicks, memWrite_setZeroFlag]
  cases memWrite s.entering s.entering.sp s.pc with
  | error f => rfl
  | ok t =>
    change ((memRead t 0#32).map _).bind _ = (memRead t 0#32).map _
    cases memRead t 0#32 with
    | error f => rfl
    | ok x =>
      simp only [Except.map, Except.bind, State.setPc, State.setInterrupts, State.setLatch, State.setZeroFlag,
        State.addTicks]

theorem interruptEntry_eq (c : Word) (s : State) :
    interruptEntry c s = (memWrite s.entering s.entering.sp s.pc).bind fun t => (memRead t 0#32).map fun x =>
      ((((t.setPc x).setInterrupts false true).setLatch (some c)).freeFlag).addTicks 4 := by
  unfold interruptEntry
  rw [wrap32_pred]
  change (match memWrite s.entering s.entering.sp s.pc with | .error f => _ | .ok t => _) = _
  cases memWrite s.entering s.entering.sp s.pc with
  | error f => rfl
  | ok t =>
    change (match memRead t 0#32 with | .error f => _ | .ok x => _) = (memRead t 0#32).map _
    cases memRead t 0#32 <;> rfl

/-- Push and vector read are the same accesses on both sides, and the flag they differ in is forgotten. -/
theorem microEntry_eraseFlag (c : Word) (d : DataPath) :
    ((microEntry c d).map DataPath.arch).map State.eraseFlag = (interruptEntry c d.arch).map State.eraseFlag := by
  rw [microEntry_implements c d, interruptEntry_eq]
  beta_reduce
  cases memWrite d.arch.entering d.arch.entering.sp d.arch.pc with
  | error f => rfl
  | ok t =>
    change ((memRead t 0#32).map _).map _ = ((memRead t 0#32).map _).map _
    cases memRead t 0#32 <;> rfl

/-- Settles O53: what the sequence and the rule answer is the same once the flag is forgotten. -/
theorem microSequenceRefinesInterruptEntry : Obligations.MicroSequenceRefinesInterruptEntry := by
  intro c d
  have h := microEntry_eraseFlag c d
  cases hm : microEntry c d <;> cases he : interruptEntry c d.arch <;> simp_all [Except.map]

/-! ### The stored word -/

/-- The immediate reaches the ALU's right input, and `op2_reg` stays selected. -/
theorem runSignals_store (r : Reg) (v : Word) (d : DataPath) :
    runSignals [selectOperands none (some (.reg r)) none, latchAlu (some v), executeAlu .right, writeMemory] d =
      writeMemory ((d.latched none (some (.reg r)) none (some v)).computed v) := by
  simp only [runSignals_cons, selectOperands_eq, latchAlu_latched, executeAlu_right, DataPath.latched_right_const,
    Except.bind]
  split <;> simp [*]

/-- Settles O54: the write takes the selected register, at the address the immediate put on the ALU bus. -/
theorem writeMemoryIgnoresTheImmediate : Obligations.WriteMemoryIgnoresTheImmediate := by
  intro r v d
  rw [runSignals_store, writeMemory_eq]
  change (memWrite (d.arch.setZeroFlag (zeroOf v)) v (d.arch.readReg r)).map _ = _
  cases memWrite (d.arch.setZeroFlag (zeroOf v)) v (d.arch.readReg r) <;> rfl

end Sys2Proof.Machine
end

section
/-! PROOF of O6 to O11. The six share `arith`, so what an instruction that completes leaves is said once, for any ALU
operation (`arith_effect`); each statement adds its row of R118, which is settled with O12. -/

namespace Sys2Proof.Machine

/-! ### What the six share -/

section
variable {i : Instr} {op : AluOp} {o a : Reg} {v : Operand} {s t : State} {x : Word} {f : Fault}

/-- Beside `out` and `zero_flag`, an arithmetic instruction only completes its cycle (41_arithmetic.md). -/
theorem arith_frame (ht : arith op o a v s = .next t) :
    Completes s t (s.pc + 1#32) 1 ∧ KeepsCells s t ∧ KeepsModes s t ∧ KeepsInputs s t ∧ KeepsPorts s t := by
  obtain ⟨henabled, hhandler, hhalted, houtput, hcursor, htick, hcounter⟩ := arith_control ht
  have hpc := arith_pc ht
  obtain ⟨x, -, rfl⟩ := arith_next ht
  refine ⟨⟨hpc, hcounter, htick⟩, ⟨?_, ?_⟩, ⟨henabled, hhandler, hhalted⟩, ⟨?_, ?_, ?_, hcursor⟩, ?_, ?_⟩ <;> simp

theorem arith_effect (hexec : exec i s = arith op o a v s)
    (halu : alu op (s.readReg a) (s.val v) 0#32 = .ok x) : ArithmeticEffect i o x s := by
  have hnext : arith op o a v s = .next (((s.writeReg o x).setZeroFlag (zeroOf x)).retire (nextPc s.pc) 1) := by
    rw [arith, halu]
  refine ⟨_, hexec.trans hnext, ?_, ?_, arith_frame hnext⟩
  · simpa [WritesReg] using s.writesReg_writeReg o x
  · simp [zeroOf_eq]

theorem arith_fault (halu : alu op (s.readReg a) (s.val v) 0#32 = .error f) : arith op o a v s = .fault f := by
  rw [arith, halu]

/-- Where the ALU faults exactly under a condition, the instruction does, and else has the shared effect. -/
theorem arith_fault_or_effect {c : Prop} [Decidable c] (hexec : exec i s = arith op o a v s)
    (halu : alu op (s.readReg a) (s.val v) 0#32 = if c then .error f else .ok x) :
    if c then exec i s = .fault f else ArithmeticEffect i o x s := by
  split_ifs at halu ⊢
  · exact hexec.trans (arith_fault halu)
  · exact arith_effect hexec halu

end

/-! ### The instructions that cannot fault -/

/-- Settles O6: the narrowed sum of the signed values is the sum of the words. -/
theorem addWritesWrappedSum : Obligations.AddWritesWrappedSum := fun _ _ _ _ =>
  ⟨arith_effect (op := .add) rfl (congrArg Except.ok (wrap32_add _ _)), rfl⟩

/-- Settles O7: the narrowed difference of the signed values is the difference of the words. -/
theorem subWritesWrappedDifference : Obligations.SubWritesWrappedDifference := fun _ _ _ _ =>
  ⟨arith_effect (op := .sub) rfl (congrArg Except.ok (wrap32_sub _ _)), rfl⟩

/-- Settles O8: the narrowed product of the signed values is the product of the words. -/
theorem mulWritesLowProduct : Obligations.MulWritesLowProduct := fun _ _ _ _ =>
  ⟨arith_effect (op := .mul) rfl (congrArg Except.ok (wrap32_mul _ _)), rfl⟩

/-! ### The divisions -/

/-- Settles O9: the ALU's row of `DIV` decides between fault and quotient. -/
theorem divWritesQuotientOrFaults : Obligations.DivWritesQuotientOrFaults := fun _ _ _ _ =>
  ⟨arith_fault_or_effect (op := .div) rfl (alu_div _ _ _), rfl⟩

/-- Settles O10: the ALU's row of `MOD` decides between fault and remainder. -/
theorem modWritesRemainderOrFaults : Obligations.ModWritesRemainderOrFaults := fun _ _ _ _ =>
  ⟨arith_fault_or_effect (op := .mod) rfl (alu_mod _ _ _), rfl⟩

/-! ### The comparison -/

/-- A difference of signed values that a word can hold is that word's signed value. -/
theorem toInt_sub_of_no_overflow {l r : Word} (hlow : -2 ^ 31 ≤ l.toInt - r.toInt)
    (hhigh : l.toInt - r.toInt < 2 ^ 31) : (l - r).toInt = l.toInt - r.toInt := by
  rw [BitVec.toInt_sub]
  exact Int.bmod_eq_of_le (by simpa using hlow) (by simpa using hhigh)

/-- Settles O11: a wrapped difference is zero on equal words alone, and an exact one has the sign of the
comparison. -/
theorem cmpWritesDifference : Obligations.CmpWritesDifference := by
  intro o a v s
  refine ⟨arith_effect (op := .cmp) rfl (congrArg Except.ok (wrap32_sub _ _)), sub_eq_zero, ?_, rfl⟩
  intro hlow hhigh
  rw [toInt_sub_of_no_overflow hlow hhigh, sub_neg]

end Sys2Proof.Machine
end

section
/-! PROOF of O14 to O16. The three share one last act, freeing `zero_flag` and completing the cycle at a target, so
their frame is said once for it (`jump_effect`); the branches add which of the two targets is taken. -/

namespace Sys2Proof.Machine

section
variable {i : Instr} {taken : Bool} {v : Operand} {s : State} {next : Word} {cost : Nat}

/-- Freeing `zero_flag` and completing the cycle touches nothing that 42_control_transfer.md keeps. -/
theorem jump_effect (hexec : exec i s = .next (s.freeFlag.retire next cost)) : JumpEffect i next cost s := by
  refine ⟨_, hexec, ⟨?_, ?_, ?_⟩, fun _ => ?_, ⟨?_, fun _ => ?_⟩, ⟨?_, ?_, ?_⟩, ⟨?_, ?_, ?_, ?_⟩, ?_, ?_⟩ <;> simp

/-- A conditional jump has the effect of the side that it takes. -/
theorem branch_effect (hexec : exec i s = .next (branch taken v s)) :
    if taken then JumpEffect i (s.val v) 2 s else JumpEffect i (s.pc + 1#32) 1 s := by
  cases taken with
  | true => exact jump_effect hexec
  | false => exact nextPc_eq s.pc ▸ jump_effect hexec

end

/-- Settles O14: `je` branches on the zero test of its register. -/
theorem jeJumpsOnZero : Obligations.JeJumpsOnZero := by
  intro a v s
  refine ⟨?_, rfl⟩
  have heffect := branch_effect (i := .je a v) (taken := zeroOf (s.readReg a)) (s := s) rfl
  simpa only [zeroOf_eq, decide_eq_true_eq] using heffect

/-- Settles O15: `jne` branches on the negated test, so the two sides change places. -/
theorem jneJumpsOnNonzero : Obligations.JneJumpsOnNonzero := by
  intro a v s
  refine ⟨?_, rfl⟩
  have heffect := branch_effect (i := .jne a v) (taken := !zeroOf (s.readReg a)) (s := s) rfl
  simpa only [zeroOf_eq, Bool.not_eq_true', decide_eq_false_iff_not, ite_not] using heffect

/-- Settles O16: `jmp` makes no test, so its effect is the shared one. -/
theorem jmpJumps : Obligations.JmpJumps := fun _ _ => ⟨jump_effect rfl, rfl⟩

end Sys2Proof.Machine
end

section
/-! PROOF of O17 and O18. Of what the two keep, all but the registers, the cells and the ports is read off the tables
that every instruction follows (`exec_completes`, `exec_keepsInputs`, `exec_control`); each is then one equation at a
valid address and one at any other (`exec_ld_of_valid` and the three beside it). -/

namespace Sys2Proof.Machine

/-! ### What every instruction that completes does -/

section
variable {i : Instr} {s t : State}

theorem exec_completes (ht : exec i s = .next t) : Completes s t (pcAfter i s) (tickCost i s) :=
  ⟨exec_pc ht, (exec_control ht).instrCounter, (exec_control ht).tick⟩

theorem exec_keepsInputs (ht : exec i s = .next t) : KeepsInputs s t := by
  have hloaded := exec_loaded ht
  simp only [State.loaded, Prod.mk.injEq] at hloaded
  obtain ⟨himem, hschedule, -, hbudget⟩ := hloaded
  exact ⟨himem, hschedule, hbudget, (exec_control ht).cursor⟩

/-- Outside `sti`, `cli`, `iret` and `halt` the tables leave the modes alone. -/
theorem exec_keepsModes (ht : exec i s = .next t) (henabled : enabledAfter i s = s.interruptsEnabled)
    (hhandler : inInterruptAfter i s = s.inInterrupt) (hhalted : haltedAfter i s = s.halted) : KeepsModes s t :=
  ⟨(exec_control ht).enabled.trans henabled, (exec_control ht).inInterrupt.trans hhandler,
    (exec_control ht).halted.trans hhalted⟩

end

/-! ### Valid and other addresses -/

section
variable {s : State} {v : Operand}

/-- A rule that turns on the signed range of an address (R51) turns on `validAddr`. -/
theorem State.inside_or_outside {P Q : Prop} {a : Word} (hinside : s.validAddr a = true → P)
    (houtside : s.validAddr a = false → Q) : if 0 ≤ a.toInt ∧ a.toInt < s.dmemSize then P else Q := by
  split
  · next h => exact hinside ((s.validAddr_iff a).mpr h)
  · next h => exact houtside (Bool.eq_false_iff.mpr (mt (s.validAddr_iff a).mp h))

theorem exec_ld_of_valid (o : Reg) (h : s.validAddr (s.val v) = true) :
    exec (.ld o v) s = .next ((s.writeReg o (s.readCell (s.val v).toNat)).freeFlag.retire (nextPc s.pc) 1) := by
  rw [exec, execLd_eq, memRead_of_valid h]
  rfl

theorem exec_ld_of_invalid (o : Reg) (h : s.validAddr (s.val v) = false) :
    exec (.ld o v) s = .fault (.memoryError .data (s.val v).toInt) := by
  rw [exec, execLd_eq, memRead_of_invalid h]
  rfl

theorem exec_sv_of_valid (a : Reg) (h : s.validAddr (s.val v) = true) :
    exec (.sv a v) s = .next ((s.writeCell (s.val v).toNat (s.readReg a)).freeFlag.retire (nextPc s.pc) 1) := by
  rw [exec, execSv_eq, memWrite_of_valid _ h]
  rfl

theorem exec_sv_of_invalid (a : Reg) (h : s.validAddr (s.val v) = false) :
    exec (.sv a v) s = .fault (.memoryError .data (s.val v).toInt) := by
  rw [exec, execSv_eq, memWrite_of_invalid _ h]
  rfl

end

/-! ### The statements -/

/-- Settles O17: at a valid address the state after `ld` is that of one register write. -/
theorem ldLoadsCellOrFaults : Obligations.LdLoadsCellOrFaults := by
  intro o v s
  refine ⟨State.inside_or_outside (fun hvalid => ?_) (exec_ld_of_invalid o), rfl⟩
  have hnext := exec_ld_of_valid o hvalid
  refine ⟨_, hnext, ?writes, exec_completes hnext, ?cells, exec_keepsModes hnext rfl rfl rfl,
    exec_keepsInputs hnext, ?ports⟩
  case writes => simpa [WritesReg] using s.writesReg_writeReg o (s.readCell (s.val v).toNat)
  case cells => simp [KeepsCells]
  case ports => simp [KeepsPorts]

/-- Settles O18: at a valid address the state after `sv` is that of one cell write, which a canonical memory reads
back. -/
theorem svStoresRegisterOrFaults : Obligations.SvStoresRegisterOrFaults := by
  intro a v s hwf
  refine ⟨State.inside_or_outside (fun hvalid => ?_) (exec_sv_of_invalid a), rfl⟩
  have hnext := exec_sv_of_valid a hvalid
  refine ⟨_, hnext, ?cell, ?others, exec_completes hnext, ?regs, exec_keepsModes hnext rfl rfl rfl,
    exec_keepsInputs hnext, ?ports⟩
  case cell => simpa using State.readCell_writeCell_self hwf (s.val v).toNat (s.readReg a)
  case others =>
    refine ⟨by simp, fun k hk => ?_⟩
    simpa using s.readCell_writeCell_of_ne (s.readReg a) hk
  case regs => simp [KeepsRegs]
  case ports => simp [KeepsPorts]

end Sys2Proof.Machine
end

section
/-! PROOF of O19 and O20. What the two leave alone beside the registers, the cells and the ports is read off the tables
that every instruction follows, as for O17 and O18; the rest is the state after `in` at a full latch, that after `out`
at any, and the fault of `in` at an empty latch. -/

namespace Sys2Proof.Machine

/-! ### The latch decides what `in` does -/

section
variable {s : State}

theorem exec_in_of_full (o : Reg) {c : Word} (h : s.inputLatch = some c) :
    exec (.in_ o) s = .next (((s.writeReg o c).setLatch none).freeFlag.retire (nextPc s.pc) 1) := by
  rw [exec, execIn_eq, h]
  rfl

theorem exec_in_of_empty (o : Reg) (h : s.inputLatch = none) : exec (.in_ o) s = .fault .ioError := by
  rw [exec, execIn_eq, h]
  rfl

end

/-! ### The statements -/

/-- Settles O19: at a full latch the state after `in` is that of one register write and an emptied latch. -/
theorem inTakesLatchOrFaults : Obligations.InTakesLatchOrFaults := by
  intro o s
  refine ⟨fun c hfull => ?_, exec_in_of_empty o, rfl⟩
  have hnext := exec_in_of_full o hfull
  refine ⟨_, hnext, ?writes, ?latch, exec_completes hnext, ?cells, exec_keepsModes hnext rfl rfl rfl,
    exec_keepsInputs hnext, ?output⟩
  case writes => simpa [WritesReg] using s.writesReg_writeReg o c
  case latch => simp
  case cells => simp [KeepsCells]
  case output => simp

/-- Settles O20: the state after `out` is that of one character emitted, and the bits [20:0] emitted are
the operand narrowed to 21 bits. -/
theorem outAppendsLowBits : Obligations.OutAppendsLowBits := by
  intro v s
  have hnext : exec (.out v) s = .next ((s.emit (s.val v)).freeFlag.retire (nextPc s.pc) 1) := rfl
  refine ⟨⟨_, hnext, ?output, exec_completes hnext, ?regs, ?cells, exec_keepsModes hnext rfl rfl rfl,
    exec_keepsInputs hnext, ?latch⟩, rfl⟩
  case output => simp [BitVec.setWidth_eq_extractLsb' (show 21 ≤ 32 by decide)]
  case regs => simp [KeepsRegs]
  case cells => simp [KeepsCells]
  case latch => simp

end Sys2Proof.Machine
end

section
/-! PROOF of O21 to O23. `iret` is one equation at a stack pointer inside data memory and one at any other, as `ld` is.
`sti`, `cli` and `halt` each write one mode before the cycle completes, so their effect is said once for a completed
write of modes (`modeWrite_effect`); what the modes, `pc` and the counters become is read off the tables. -/

namespace Sys2Proof.Machine

/-! ### The stack pointer decides what `iret` does -/

section
variable {s : State}

theorem exec_iret_of_valid (h : s.validAddr s.sp = true) :
    exec .iret s = .next
      (((s.writeReg .sp (s.sp + 1#32)).setInterrupts true false).freeFlag.retire (s.readCell s.sp.toNat) 2) := by
  rw [exec, execIret_eq, memRead_of_valid h]
  rfl

theorem exec_iret_of_invalid (h : s.validAddr s.sp = false) :
    exec .iret s = .fault (.memoryError .data s.sp.toInt) := by
  rw [exec, execIret_eq, memRead_of_invalid h]
  rfl

end

/-! ### What `sti`, `cli` and `halt` share -/

/-- An instruction that completes after a write `w` to the modes alone does what its rows of the tables say, and keeps
the rest. -/
theorem modeWrite_effect {i : Instr} {s w : State} {next : Word} {cost : Nat}
    (hexec : exec i s = .next (w.freeFlag.retire next cost))
    (hregs : KeepsRegs s w) (hcells : KeepsCells s w) (hports : KeepsPorts s w) :
    ∃ t, exec i s = .next t ∧ t.interruptsEnabled = enabledAfter i s ∧ t.inInterrupt = inInterruptAfter i s ∧
      t.halted = haltedAfter i s ∧ Completes s t (pcAfter i s) (tickCost i s) ∧ KeepsRegs s t ∧ KeepsCells s t ∧
      KeepsInputs s t ∧ KeepsPorts s t := by
  have hcontrol := exec_control hexec
  refine ⟨_, hexec, hcontrol.enabled, hcontrol.inInterrupt, hcontrol.halted, exec_completes hexec, ?regs, ?cells,
    exec_keepsInputs hexec, ?ports⟩
  case regs => simpa [KeepsRegs] using hregs
  case cells => simpa [KeepsCells] using hcells
  case ports => simpa [KeepsPorts] using hports

theorem step_of_halted {s : State} (h : s.halted = true) : step s = .next s := by
  rw [step, if_pos h]

/-! ### The statements -/

/-- Settles O21: at a valid stack pointer the state after `iret` is that of one write of `sp` and of both flags. -/
theorem iretPopsPcOrFaults : Obligations.IretPopsPcOrFaults := by
  intro s
  refine ⟨State.inside_or_outside (fun hvalid => ?_) exec_iret_of_invalid, rfl⟩
  have hnext := exec_iret_of_valid hvalid
  have hcontrol := exec_control hnext
  refine ⟨_, hnext, exec_completes hnext, ?writes, hcontrol.inInterrupt, hcontrol.enabled, hcontrol.halted, ?cells,
    exec_keepsInputs hnext, ?ports⟩
  case writes => simpa [WritesReg] using s.writesReg_writeReg .sp (s.sp + 1#32)
  case cells => simp [KeepsCells]
  case ports => simp [KeepsPorts]

/-- Settles O22: `sti` and `cli` are the two writes of the enable. -/
theorem stiAndCliWriteTheEnable : Obligations.StiAndCliWriteTheEnable := by
  intro s
  refine ⟨?sti, ?cli, rfl, rfl⟩
  case sti =>
    exact modeWrite_effect (w := s.setEnabled true) rfl (s.readReg_setEnabled true)
      ⟨rfl, s.readCell_setEnabled true⟩ ⟨rfl, rfl⟩
  case cli =>
    exact modeWrite_effect (w := s.setEnabled false) rfl (s.readReg_setEnabled false)
      ⟨rfl, s.readCell_setEnabled false⟩ ⟨rfl, rfl⟩

/-- Settles O23: `halt` writes the latch in a full cycle, and the guard of `step` keeps a halted state. -/
theorem haltCompletesAndStays : Obligations.HaltCompletesAndStays := by
  refine ⟨fun s => ?_, fun _ => step_of_halted, rfl⟩
  have hnext : exec .halt s = .next (s.setHalted.freeFlag.retire (nextPc s.pc) 1) := rfl
  obtain ⟨t, ht, henabled, hhandler, hhalted, hkept⟩ :=
    modeWrite_effect hnext s.readReg_setHalted ⟨rfl, s.readCell_setHalted⟩ ⟨rfl, rfl⟩
  exact ⟨t, ht, hhalted, henabled, hhandler, hkept⟩

end Sys2Proof.Machine
end

section
/-! PROOF of O39, O36 and O51. Which faults an instruction raises is one table (`exec_faultsAsListed`); which event of a
cycle raised the fault the cycle ends in is one case distinction (`step_fault`), in the order of R200. The statements
about single faults then only look through its cases. -/

namespace Sys2Proof.Machine

/-! ### The faults of an instruction -/

/-- In `s`, instruction `i` raises the fault that is listed, or completes where none is. -/
structure FaultsAsListed (i : Instr) (s : State) (listed : Option Fault) : Prop where
  fault : ∀ f, listed = some f → exec i s = .fault f
  next : listed = none → ∃ t, exec i s = .next t

section
variable {i : Instr} {s t : State} {f : Fault}

theorem FaultsAsListed.of_next (h : exec i s = .next t) : FaultsAsListed i s none :=
  ⟨nofun, fun _ => ⟨t, h⟩⟩

theorem FaultsAsListed.of_fault (h : exec i s = .fault f) : FaultsAsListed i s (some f) :=
  ⟨fun _ hf => Option.some.inj hf ▸ h, nofun⟩

/-- R181: what `div` and `mod` share. -/
theorem FaultsAsListed.of_divisor {o : Reg} {r x : Word}
    (h : if r = 0#32 then exec i s = .fault .arithError else ArithmeticEffect i o x s) :
    FaultsAsListed i s (if r = 0#32 then some .arithError else none) := by
  split_ifs at h ⊢
  · exact .of_fault h
  · obtain ⟨t, ht, -⟩ := h
    exact .of_next ht

/-- R182: what the instructions share that access data memory at one address. -/
theorem FaultsAsListed.of_address {a : Word} (hvalid : s.validAddr a = true → exec i s = .next t)
    (hinvalid : s.validAddr a = false → exec i s = .fault (.memoryError .data a.toInt)) :
    FaultsAsListed i s
      (if 0 ≤ a.toInt ∧ a.toInt < (s.dmemSize : Int) then none else some (.memoryError .data a.toInt)) := by
  have hcases := State.inside_or_outside hvalid hinvalid
  split_ifs at hcases ⊢
  · exact .of_next hcases
  · exact .of_fault hcases

theorem exec_faultsAsListed (i : Instr) (s : State) : FaultsAsListed i s (raises i s) := by
  cases i with
  | div o a v => exact .of_divisor (divWritesQuotientOrFaults o a v s).1
  | mod o a v => exact .of_divisor (modWritesRemainderOrFaults o a v s).1
  | ld o v => exact .of_address (exec_ld_of_valid o) (exec_ld_of_invalid o)
  | sv a v => exact .of_address (exec_sv_of_valid a) (exec_sv_of_invalid a)
  | iret => exact .of_address exec_iret_of_valid exec_iret_of_invalid
  | in_ o =>
    cases hlatch : s.inputLatch with
    | none => simpa [raises, hlatch] using FaultsAsListed.of_fault (exec_in_of_empty o hlatch)
    | some c => simpa [raises, hlatch] using FaultsAsListed.of_next (exec_in_of_full o hlatch)
  | add | sub | mul | cmp | je | jne | jmp | out | sti | cli | halt => exact .of_next rfl

/-- An instruction faults only as listed. -/
theorem raises_of_exec_fault (h : exec i s = .fault f) : raises i s = some f := by
  cases hlisted : raises i s with
  | none =>
    obtain ⟨t, ht⟩ := (exec_faultsAsListed i s).next hlisted
    simp [ht] at h
  | some g =>
    have hg := (exec_faultsAsListed i s).fault g hlisted
    rw [h] at hg
    rw [Host.Outcome.fault.inj hg]

theorem exec_ne_refused (i : Instr) (s : State) (q : Refusal) : exec i s ≠ .refused q := by
  cases hlisted : raises i s with
  | none =>
    obtain ⟨t, ht⟩ := (exec_faultsAsListed i s).next hlisted
    simp [ht]
  | some f => simp [(exec_faultsAsListed i s).fault f hlisted]

/-- R187: the kinds of fault on the list. -/
theorem raises_kinds (h : raises i s = some f) :
    f = .arithError ∨ (∃ a, f = .memoryError .data a) ∨ f = .ioError := by
  cases i with
  | div | mod =>
    obtain ⟨-, rfl⟩ : _ ∧ Fault.arithError = f := by simpa [raises] using h
    exact .inl rfl
  | ld | sv | iret =>
    obtain ⟨-, rfl⟩ : _ ∧ Fault.memoryError .data _ = f := by simpa [raises] using h
    exact .inr (.inl ⟨_, rfl⟩)
  | in_ =>
    obtain ⟨-, rfl⟩ : _ ∧ Fault.ioError = f := by simpa [raises] using h
    exact .inr (.inr rfl)
  | add | sub | mul | cmp | je | jne | jmp | out | sti | cli | halt => simp [raises] at h

end

/-! ### The faults of a cycle -/

/-- R200: the events of the cycle that starts in `s` that can end it, each with its fault. -/
inductive CycleFault (s : State) : Fault → Prop
  /-- R185 -/
  | budget (hbudget : s.budgetExceeded = true) : CycleFault s .budgetError
  /-- R182, the push of the interrupt entry -/
  | push (hpush : s.validAddr (s.sp - 1#32) = false) : CycleFault s (.memoryError .data (s.sp - 1#32).toInt)
  /-- R182, the fetch -/
  | fetch {s1 : State} {f : Fault} (hcheck : interruptCheck s = .ok s1) (hfetch : fetch s1 = .error f) :
      CycleFault s (.memoryError .instr s1.pc.toInt)
  /-- R184 -/
  | illegal {s1 : State} {w : InstrWord} (hcheck : interruptCheck s = .ok s1) (hfetch : fetch s1 = .ok w)
      (hillegal : legalWord w = false) : CycleFault s (.illegalInstruction s1.pc w)
  /-- R187 -/
  | instruction {i : Instr} {s1 : State} {f : Fault} (hbegin : beginCycle s = .ok (i, s1))
      (hlisted : raises i s1 = some f) : CycleFault s f

section
variable {s : State} {f : Fault}

/-- The check faults only by the push of an interrupt entry. -/
theorem interruptCheck_error (h : interruptCheck s = .error f) :
    s.validAddr (s.sp - 1#32) = false ∧ f = .memoryError .data (s.sp - 1#32).toInt := by
  unfold interruptCheck at h
  split at h
  · simp at h
  · split at h
    · split at h
      · exact interruptEntry_error h
      · simp at h
    · simp at h

theorem fetchDecode_error (h : fetchDecode s = .error f) :
    (fetch s = .error f ∧ f = .memoryError .instr s.pc.toInt) ∨
      ∃ w, fetch s = .ok w ∧ legalWord w = false ∧ f = .illegalInstruction s.pc w := by
  unfold fetchDecode at h
  split at h
  · next g hfetch =>
    obtain rfl := Except.error.inj h
    exact .inl ⟨hfetch, fetch_error hfetch⟩
  · next w hfetch =>
    split at h
    · simp at h
    · next e hdecode =>
      have hillegal : legalWord w = false := by
        rw [← Bool.not_eq_true, ← exists_decode_ok_iff]
        simp [hdecode]
      exact .inr ⟨w, hfetch, hillegal, (Except.error.inj h).symm⟩

theorem beginCycle_error (h : beginCycle s = .error f) : CycleFault s f := by
  unfold beginCycle at h
  split at h
  · next hbudget =>
    obtain rfl := Except.error.inj h
    exact .budget hbudget
  · split at h
    · next g hcheck =>
      obtain rfl := Except.error.inj h
      obtain ⟨hpush, rfl⟩ := interruptCheck_error hcheck
      exact .push hpush
    · next s1 hcheck =>
      split at h
      · next g hfetch =>
        obtain rfl := Except.error.inj h
        rcases fetchDecode_error hfetch with ⟨hnone, rfl⟩ | ⟨w, hword, hillegal, rfl⟩
        · exact .fetch hcheck hnone
        · exact .illegal hcheck hword hillegal
      · simp at h

/-- A cycle that ends in a fault ends in that of one of its events. -/
theorem step_fault (h : step s = .fault f) : CycleFault s f := by
  unfold step at h
  split at h
  · simp at h
  · split at h
    · next g hbegin =>
      obtain rfl := Host.Outcome.fault.inj h
      exact beginCycle_error hbegin
    · next i s1 hbegin => exact .instruction hbegin (raises_of_exec_fault h)

/-- R185: without a budget no cycle ends in `BudgetError`. -/
theorem step_ne_budgetError (hunset : s.tickBudget = none) : step s ≠ .fault .budgetError := by
  intro h
  cases step_fault h with
  | budget hbudget => simp [State.budgetExceeded, hunset] at hbudget
  | instruction _ hlisted => simpa using raises_kinds hlisted

/-- R184: only a program with an illegal word in it can end a cycle in `IllegalInstruction`. -/
theorem step_ne_illegalInstruction (hlegal : ProgramLegal s) (pc : Word) (w : InstrWord) :
    step s ≠ .fault (.illegalInstruction pc w) := by
  intro h
  cases step_fault h with
  | @illegal s1 _ hcheck hfetch hillegal =>
    have himem : s1.imem = s.imem := congrArg Prod.fst (interruptCheck_loaded hcheck)
    have hword : w ∈ s.imem := himem ▸ List.mem_of_getElem? (fetch_ok hfetch).2
    simp [hlegal w hword] at hillegal
  | instruction _ hlisted => simpa using raises_kinds hlisted

end

/-! ### Runs -/

/-- What every step keeps holds to the end of a run, so a fault that no step raises where it holds ends no run. -/
theorem runFor_ne_faulted {P : State → Prop} {f : Fault} (hkeep : ∀ s t, P s → step s = .next t → P t)
    (hnever : ∀ s, P s → step s ≠ .fault f) (k : Nat) {s : State} (hs : P s) : (runFor k s).2 ≠ .faulted f := by
  induction k generalizing s with
  | zero =>
    unfold runFor
    split <;> simp
  | succ k ih =>
    unfold runFor
    split
    · simp
    · split
      · next t ht => exact ih (hkeep s t hs ht)
      · next g hg =>
        intro h
        exact hnever s hs (RunEnd.faulted.inj h ▸ hg)
      · simp

/-! ### Programs of legal words -/

theorem step_programLegal (s t : State) (hs : ProgramLegal s) (ht : step s = .next t) : ProgramLegal t := by
  have himem : t.imem = s.imem := congrArg Prod.fst (step_loaded ht)
  rwa [ProgramLegal, himem]

/-- R74, R79: a load puts the words of well-formed instructions into instruction memory. -/
theorem load_programLegal {a : Artifact} {h : Setup} {s : State} (hs : load a h = .ok s) : ProgramLegal s := by
  obtain ⟨code, hcode, -, -, -, -, -, rfl⟩ := load_ok hs
  intro w hw
  obtain ⟨k, hk, rfl⟩ := List.getElem_of_mem hw
  obtain ⟨hlength, hwords⟩ := List.forall₂_iff_get.mp (encodeCode_ok hcode)
  obtain ⟨i, hi, hword⟩ := hwords k (hlength ▸ hk) hk
  exact exists_decode_ok_iff.mp ⟨i, (congrArg decode hword).trans (decode_encode (Record.toInstr?_wellFormed hi))⟩

/-! ### The statements -/

/-- Settles O39: no refusal is left once the list says fault or completion for every instruction. -/
theorem instructionsFaultExactlyAsListed : Obligations.InstructionsFaultExactlyAsListed := by
  refine ⟨fun i s => ?_, fun s q h => ?_⟩
  · cases hlisted : raises i s with
    | none => exact (exec_faultsAsListed i s).next hlisted
    | some f => exact (exec_faultsAsListed i s).fault f hlisted
  · unfold step at h
    split at h
    · simp at h
    · split at h
      · simp at h
      · exact exec_ne_refused _ _ q h

/-- Settles O36: each event ends the cycle where no earlier one did. -/
theorem faultsComeInCycleOrder : Obligations.FaultsComeInCycleOrder := by
  intro s hrun
  refine ⟨fun b hset hpast => ?budget, step_ne_budgetError, fun hbudget f hcheck => ?push,
    fun hbudget s1 hcheck houtside => ?fetch⟩
  case budget =>
    have hbudget : s.budgetExceeded = true := by simpa [State.budgetExceeded, hset] using hpast
    exact step_of_beginCycle_error hrun (by simp [beginCycle, hbudget])
  case push => exact step_of_beginCycle_error hrun (by simp [beginCycle, hbudget, hcheck])
  case fetch =>
    have hfetch : fetchDecode s1 = .error (.memoryError .instr s1.pc.toInt) := by
      simp [fetchDecode, fetch_of_outside houtside]
    exact step_of_beginCycle_error hrun (beginCycle_of_fetchDecode_error hbudget hcheck hfetch)

/-- Settles O51: the load makes the program legal, every step keeps it so, and no step of a legal program raises the
fault. -/
theorem loadedProgramsNeverMeetIllegalWords : Obligations.LoadedProgramsNeverMeetIllegalWords :=
  ⟨step_programLegal, fun _ _ _ hs k pc w =>
    runFor_ne_faulted step_programLegal (fun _ hlegal => step_ne_illegalInstruction hlegal pc w) k
      (load_programLegal hs)⟩

end Sys2Proof.Machine
end

section
/-! PROOF of O28 to O30. The entry succeeds exactly where its push does (`interruptEntry_of_valid`,
`interruptEntry_of_invalid`), and the frame it pushes is what `iret` returns by (`interruptEntry_frame`). The check in a
handler drops the longest run of due entries. -/

namespace Sys2Proof.Machine

/-! ### The interrupt entry -/

section
variable {c : Word} {s t : State}

theorem interruptEntry_of_valid (c : Word) (h : s.validAddr (s.sp - 1#32) = true) :
    ∃ t, interruptEntry c s = .ok t := by
  cases hentry : interruptEntry c s with
  | ok t => exact ⟨t, rfl⟩
  | error f => simp [(interruptEntry_error hentry).1] at h

theorem interruptEntry_of_invalid (c : Word) (h : s.validAddr (s.sp - 1#32) = false) :
    interruptEntry c s = .error (.memoryError .data (s.sp - 1#32).toInt) := by
  cases hentry : interruptEntry c s with
  | ok t => simp [(interruptEntry_ok hentry).1] at h
  | error f => rw [(interruptEntry_error hentry).2]

/-- R195: the frame the entry leaves for the return: `sp` one below, and the interrupted `pc` in the cell at it. -/
theorem interruptEntry_frame (hwf : s.dmem.wf) (h : interruptEntry c s = .ok t) :
    WritesReg s t .sp (s.sp - 1#32) ∧ t.readCell (s.sp - 1#32).toNat = s.pc ∧
      KeepsOtherCells s t (s.sp - 1#32).toNat := by
  obtain ⟨-, rfl⟩ := interruptEntry_ok h
  refine ⟨?writes, ?saved, ?size, fun k hk => ?others⟩
  case writes => simpa [WritesReg] using (s.setCursor (s.cursor + 1)).writesReg_writeReg .sp (s.sp - 1#32)
  case saved => exact Memory.read_write_self hwf _ s.pc
  case size => simp
  case others => exact Memory.read_write_of_ne s.dmem _ k s.pc hk

/-- R62, R195: the vector is read after the push, which overwrites it where `sp` comes to 0. -/
theorem interruptEntry_pc (hwf : s.dmem.wf) (h : interruptEntry c s = .ok t) :
    t.pc = if (s.sp - 1#32).toNat = 0 then s.pc else s.readCell 0 := by
  obtain ⟨-, rfl⟩ := interruptEntry_ok h
  change Memory.read (Memory.write s.dmem _ s.pc) 0 = _
  split
  · next hzero => rw [hzero, Memory.read_write_self hwf]
  · next hne => exact Memory.read_write_of_ne _ _ _ _ (Ne.symm hne)

end

/-- Settles O28: the push decides between entry and fault; beside its frame and the vector, the entry writes the fields
of the control state that R195 names. -/
theorem interruptEntryPushesAndVectors : Obligations.InterruptEntryPushesAndVectors := by
  intro c s hwf
  refine State.inside_or_outside (fun hvalid => ?_) (interruptEntry_of_invalid c)
  obtain ⟨t, hentry⟩ := interruptEntry_of_valid c hvalid
  obtain ⟨hwrites, hsaved, hothers⟩ := interruptEntry_frame hwf hentry
  have hpc := interruptEntry_pc hwf hentry
  have hcontrol : t.cursor = s.cursor + 1 ∧ t.inInterrupt = true ∧ t.interruptsEnabled = false ∧
      t.inputLatch = some c ∧ t.tick = s.tick + 4 ∧ t.instrCounter = s.instrCounter ∧ t.halted = s.halted ∧
      t.outputBuffer = s.outputBuffer ∧ t.imem = s.imem ∧ t.schedule = s.schedule ∧ t.tickBudget = s.tickBudget := by
    obtain ⟨-, rfl⟩ := interruptEntry_ok hentry
    simp
  obtain ⟨hcursor, hkept⟩ := hcontrol
  exact ⟨t, hentry, hcursor, hwrites, hsaved, hothers, hpc, hkept⟩

/-! ### The return -/

/-- Settles O30: `iret` reads the cell the entry pushed to, and its increment of `sp` undoes the entry's decrement. -/
theorem iretRestoresInterruptedPc : Obligations.IretRestoresInterruptedPc := by
  intro c s t u hwf hentry husp husize hucell
  obtain ⟨⟨htsp, -⟩, hsaved, htsize, -⟩ := interruptEntry_frame hwf hentry
  have hsp : t.sp = s.sp - 1#32 := by simpa [State.readReg] using htsp
  have hvalid : u.validAddr u.sp = true := by
    rw [husp, hsp, State.validAddr_congr (husize.trans htsize)]
    exact (interruptEntry_ok hentry).1
  have hpc : u.readCell u.sp.toNat = s.pc := by rw [husp, hucell, hsp, hsaved]
  have hback : u.sp + 1#32 = s.sp := by rw [husp, hsp, BitVec.sub_add_cancel]
  exact ⟨_, exec_iret_of_valid hvalid, hpc, hback, rfl, rfl⟩

/-! ### The interrupt check -/

section
variable {α : Type} {p : α → Bool} {l : List α}

theorem exists_getElem?_of_lt_takeWhile {j : Nat} (h : j < (l.takeWhile p).length) :
    ∃ x, l[j]? = some x ∧ p x = true := by
  refine ⟨(l.takeWhile p)[j], ?_, List.mem_takeWhile_imp (List.getElem_mem h)⟩
  calc l[j]? = (l.takeWhile p ++ l.dropWhile p)[j]? := by rw [List.takeWhile_append_dropWhile]
    _ = (l.takeWhile p)[j]? := List.getElem?_append_left h
    _ = some (l.takeWhile p)[j] := List.getElem?_eq_getElem h

theorem not_of_getElem?_length_takeWhile {x : α} (h : l[(l.takeWhile p).length]? = some x) : p x = false := by
  induction l with
  | nil => simp at h
  | cons a l ih =>
    cases ha : p a
    · obtain rfl : a = x := by simpa [List.takeWhile_cons, ha] using h
      exact ha
    · exact ih (by simpa [List.takeWhile_cons, ha] using h)

end

section
variable {s : State}

/-- R192: the entries the device drops are due. -/
theorem State.due_of_lt_dueCount {j : Nat} (h : j < s.dueCount) :
    ∃ e, s.schedule[s.cursor + j]? = some e ∧ e.tick ≤ s.tick := by
  simpa [List.getElem?_drop] using exists_getElem?_of_lt_takeWhile h

/-- R192: the entry the device stops at, if any, is not due. -/
theorem State.not_due_of_dueCount {e : InputEntry} (h : s.schedule[s.cursor + s.dueCount]? = some e) :
    s.tick < e.tick := by
  rw [← List.getElem?_drop] at h
  simpa using not_of_getElem?_length_takeWhile h

/-- R191: with no due entry at the cursor there is no request. -/
theorem State.request_eq_none (h : ∀ e, s.schedule[s.cursor]? = some e → s.tick < e.tick) : s.request = none := by
  by_contra hsome
  obtain ⟨e, hreq⟩ := Option.ne_none_iff_exists'.mp hsome
  obtain ⟨hget, hdue⟩ := State.request_eq_some.mp hreq
  exact absurd (h e hget) (not_lt.mpr hdue)

theorem interruptCheck_of_inInterrupt (hin : s.inInterrupt = true) :
    interruptCheck s = .ok (s.setCursor (s.cursor + s.dueCount)) := by
  rw [interruptCheck, if_pos hin]

theorem interruptCheck_of_request {e : InputEntry} (hout : s.inInterrupt = false)
    (hon : s.interruptsEnabled = true) (hreq : s.request = some e) :
    interruptCheck s = interruptEntry e.char s := by
  simp [interruptCheck, hout, hon, hreq]

theorem interruptCheck_of_idle (hout : s.inInterrupt = false)
    (hidle : s.interruptsEnabled = false ∨ s.request = none) : interruptCheck s = .ok s := by
  rcases hidle with hoff | hnone
  · simp [interruptCheck, hout, hoff]
  · simp [interruptCheck, hout, hnone]

end

/-- Settles O29: in a handler the count of R192 is the number dropped; outside one, the enable and the request decide. -/
theorem interruptCheckDropsTakesOrHolds : Obligations.InterruptCheckDropsTakesOrHolds := by
  intro s
  refine ⟨fun hin => ?drops, fun hout hon e hget hdue => ?takes, fun hout hidle => ?holds⟩
  case drops =>
    exact ⟨s.dueCount, interruptCheck_of_inInterrupt hin, fun _ => State.due_of_lt_dueCount,
      fun _ => State.not_due_of_dueCount⟩
  case takes => exact interruptCheck_of_request hout hon (State.request_eq_some.mpr ⟨hget, hdue⟩)
  case holds => exact interruptCheck_of_idle hout (hidle.imp_right State.request_eq_none)

end Sys2Proof.Machine
end

section
/-! PROOF of O46 and O47. No instruction reads the schedule, the cursor or `in_interrupt`, so forgetting all three
commutes with every instruction (`exec_eraseUnread`); which of the three a statement must not forget is read off the
tables of what an instruction writes (`exec_control`, `exec_loaded`). -/

namespace Sys2Proof.Machine

/-- Forget what no instruction reads: the schedule and the cursor (R193), and `in_interrupt` (R205). -/
def State.eraseUnread (s : State) : State := s.eraseDevice.eraseInHandler

/-! ### The operations under `eraseUnread` -/

section
variable (s : State)

@[simp] theorem State.readReg_eraseUnread (r : Reg) : s.eraseUnread.readReg r = s.readReg r := by
  cases r <;> rfl
@[simp] theorem State.val_eraseUnread (v : Operand) : s.eraseUnread.val v = s.val v :=
  State.val_congr s.readReg_eraseUnread v
@[simp] theorem State.sp_eraseUnread : s.eraseUnread.sp = s.sp := rfl
@[simp] theorem State.pc_eraseUnread : s.eraseUnread.pc = s.pc := rfl
@[simp] theorem State.inputLatch_eraseUnread : s.eraseUnread.inputLatch = s.inputLatch := rfl
@[simp] theorem memRead_eraseUnread (a : Word) : memRead s.eraseUnread a = memRead s a := rfl

@[simp] theorem State.eraseUnread_eraseUnread : s.eraseUnread.eraseUnread = s.eraseUnread := rfl
@[simp] theorem State.eraseUnread_writeReg (r : Reg) (v : Word) :
    (s.writeReg r v).eraseUnread = s.eraseUnread.writeReg r v := by
  cases r <;> rfl
@[simp] theorem State.eraseUnread_setZeroFlag (b : Bool) :
    (s.setZeroFlag b).eraseUnread = s.eraseUnread.setZeroFlag b := rfl
@[simp] theorem State.eraseUnread_freeFlag : s.freeFlag.eraseUnread = s.eraseUnread.freeFlag := rfl
@[simp] theorem State.eraseUnread_retire (next : Word) (cost : Nat) :
    (s.retire next cost).eraseUnread = s.eraseUnread.retire next cost := rfl
@[simp] theorem State.eraseUnread_setLatch (c : Option Word) :
    (s.setLatch c).eraseUnread = s.eraseUnread.setLatch c := rfl
@[simp] theorem State.eraseUnread_emit (v : Word) : (s.emit v).eraseUnread = s.eraseUnread.emit v := rfl
@[simp] theorem State.eraseUnread_setHalted : s.setHalted.eraseUnread = s.eraseUnread.setHalted := rfl
@[simp] theorem State.eraseUnread_setEnabled (enabled : Bool) :
    (s.setEnabled enabled).eraseUnread = s.eraseUnread.setEnabled enabled := rfl
@[simp] theorem State.eraseUnread_setInterrupts (enabled inHandler : Bool) :
    (s.setInterrupts enabled inHandler).eraseUnread = s.eraseUnread.setEnabled enabled := rfl

theorem memWrite_eraseUnread (a v : Word) :
    memWrite s.eraseUnread a v = (memWrite s a v).map State.eraseUnread := by
  have hvalid : s.eraseUnread.validAddr a = s.validAddr a := State.validAddr_congr rfl a
  unfold memWrite
  rw [hvalid]
  split <;> rfl

end

/-! ### The instructions -/

/-- Two rules that make the same access and then leave states that agree, agree. -/
theorem outcomeOf_map_agree {α : Type} {erase : State → State} {f g : α → State} (r : Except Fault α)
    (h : ∀ x, erase (f x) = erase (g x)) : AgreeUpTo erase (outcomeOf (r.map f)) (outcomeOf (r.map g)) := by
  cases r with
  | error e => rfl
  | ok x => exact h x

theorem arith_eraseUnread (op : AluOp) (o a : Reg) (v : Operand) (s : State) :
    AgreeUpTo State.eraseUnread (arith op o a v s) (arith op o a v s.eraseUnread) := by
  simp only [arith_eq, State.readReg_eraseUnread, State.val_eraseUnread, State.pc_eraseUnread]
  exact outcomeOf_map_agree _ fun x => by simp

theorem branch_eraseUnread (taken : Bool) (v : Operand) (s : State) :
    (branch taken v s).eraseUnread = (branch taken v s.eraseUnread).eraseUnread := by
  cases taken <;> simp [branch]

theorem exec_eraseUnread (i : Instr) (s : State) :
    AgreeUpTo State.eraseUnread (exec i s) (exec i s.eraseUnread) := by
  cases i with
  | add o a v => exact arith_eraseUnread .add o a v s
  | sub o a v => exact arith_eraseUnread .sub o a v s
  | div o a v => exact arith_eraseUnread .div o a v s
  | mod o a v => exact arith_eraseUnread .mod o a v s
  | mul o a v => exact arith_eraseUnread .mul o a v s
  | cmp o a v => exact arith_eraseUnread .cmp o a v s
  | je a v => simpa [exec, execJe, AgreeUpTo] using branch_eraseUnread _ v s
  | jne a v => simpa [exec, execJne, AgreeUpTo] using branch_eraseUnread _ v s
  | jmp v => simp [exec, execJmp, AgreeUpTo]
  | out v => simp [exec, execOut, AgreeUpTo]
  | in_ o =>
    simp only [exec, execIn_eq, State.inputLatch_eraseUnread, State.pc_eraseUnread]
    exact outcomeOf_map_agree _ fun c => by simp
  | ld o v =>
    simp only [exec, execLd_eq, State.val_eraseUnread, State.pc_eraseUnread, memRead_eraseUnread]
    exact outcomeOf_map_agree _ fun x => by simp
  | sv a v =>
    simp only [exec, execSv_eq, State.val_eraseUnread, State.readReg_eraseUnread, memWrite_eraseUnread]
    cases memWrite s (s.val v) (s.readReg a) <;> rfl
  | iret =>
    simp only [exec, execIret_eq, State.sp_eraseUnread, memRead_eraseUnread]
    exact outcomeOf_map_agree _ fun x => by simp
  | sti => simp [exec, execSti, AgreeUpTo]
  | cli => simp [exec, execCli, AgreeUpTo]
  | halt => simp [exec, execHalt, AgreeUpTo]

/-- States that differ only in what no instruction reads run every instruction alike. -/
theorem exec_agree_of_eraseUnread_eq (i : Instr) {s t : State} (h : s.eraseUnread = t.eraseUnread) :
    AgreeUpTo State.eraseUnread (exec i s) (exec i t) :=
  (exec_eraseUnread i s).trans (h ▸ (exec_eraseUnread i t).symm)

/-! ### Forgetting less -/

/-- Outcomes that agree up to one erasure agree up to another that their next states cannot be told apart by. -/
theorem AgreeUpTo.imp {erase erase' : State → State} {o p : Host.Outcome State Fault Refusal}
    (h : AgreeUpTo erase o p)
    (hnext : ∀ t u, o = .next t → p = .next u → erase t = erase u → erase' t = erase' u) : AgreeUpTo erase' o p := by
  cases o <;> cases p <;> simp_all [AgreeUpTo]

section
variable {t u : State} (h : t.eraseUnread = u.eraseUnread)
include h

theorem State.eraseDevice_eq_of_eraseUnread_eq (hin : t.inInterrupt = u.inInterrupt) :
    t.eraseDevice = u.eraseDevice :=
  calc t.eraseDevice = { t.eraseUnread with inInterrupt := t.inInterrupt } := rfl
    _ = { u.eraseUnread with inInterrupt := u.inInterrupt } := by rw [h, hin]
    _ = u.eraseDevice := rfl

theorem State.eraseInHandler_eq_of_eraseUnread_eq (hschedule : t.schedule = u.schedule)
    (hcursor : t.cursor = u.cursor) : t.eraseInHandler = u.eraseInHandler :=
  calc t.eraseInHandler = { t.eraseUnread with schedule := t.schedule, cursor := t.cursor } := rfl
    _ = { u.eraseUnread with schedule := u.schedule, cursor := u.cursor } := by rw [h, hschedule, hcursor]
    _ = u.eraseInHandler := rfl

end

theorem inInterruptAfter_congr (i : Instr) {s t : State} (h : s.inInterrupt = t.inInterrupt) :
    inInterruptAfter i s = inInterruptAfter i t := by
  unfold inInterruptAfter
  split
  · rfl
  · exact h

/-- R193: the device is no input of an instruction. -/
theorem exec_agree_of_eraseDevice_eq (i : Instr) {s t : State} (h : s.eraseDevice = t.eraseDevice) :
    AgreeUpTo State.eraseDevice (exec i s) (exec i t) := by
  have hin : s.inInterrupt = t.inInterrupt := congrArg (·.inInterrupt) h
  refine (exec_agree_of_eraseUnread_eq i (congrArg State.eraseInHandler h)).imp fun s' t' hs ht hunread => ?_
  refine State.eraseDevice_eq_of_eraseUnread_eq hunread ?_
  rw [(exec_control hs).inInterrupt, (exec_control ht).inInterrupt, inInterruptAfter_congr i hin]

/-- R205: the mode is no input of an instruction. -/
theorem exec_agree_of_eraseInHandler_eq (i : Instr) {s t : State} (h : s.eraseInHandler = t.eraseInHandler) :
    AgreeUpTo State.eraseInHandler (exec i s) (exec i t) := by
  have hschedule : s.schedule = t.schedule := congrArg (·.schedule) h
  have hcursor : s.cursor = t.cursor := congrArg (·.cursor) h
  refine (exec_agree_of_eraseUnread_eq i (congrArg State.eraseDevice h)).imp fun s' t' hs ht hunread => ?_
  obtain ⟨-, hs'schedule, -, hs'cursor⟩ := exec_keepsInputs hs
  obtain ⟨-, ht'schedule, -, ht'cursor⟩ := exec_keepsInputs ht
  refine State.eraseInHandler_eq_of_eraseUnread_eq hunread ?_ ?_
  · rw [hs'schedule, ht'schedule, hschedule]
  · rw [hs'cursor, ht'cursor, hcursor]

/-! ### The cycle in a handler -/

/-- R193: in a handler, steps 0 to 2 of a cycle look at the device only to move the cursor. -/
theorem beginCycle_of_inInterrupt {s : State} (hin : s.inInterrupt = true) :
    beginCycle s = if s.budgetExceeded then .error .budgetError
      else (fetchDecode s).map fun i => (i, s.setCursor (s.cursor + s.dueCount)) := by
  have hfetch (k : Nat) : fetchDecode (s.setCursor k) = fetchDecode s := rfl
  unfold beginCycle
  rw [interruptCheck_of_inInterrupt hin]
  simp only [hfetch]
  cases fetchDecode s <;> rfl

/-! ### The statements -/

/-- Settles O46: both cycles execute the instruction fetched at the same `pc`, in states that differ in the device. -/
theorem inputInsideHandlerChangesNothing : Obligations.InputInsideHandlerChangesNothing := by
  intro s sched k hin
  generalize ht : { s with schedule := sched, cursor := k } = t
  have hhalted : t.halted = s.halted := ht ▸ rfl
  have hbudget : t.budgetExceeded = s.budgetExceeded := ht ▸ rfl
  have hfetch : fetchDecode t = fetchDecode s := ht ▸ rfl
  have htin : t.inInterrupt = true := ht ▸ hin
  have hdevice : s.eraseDevice = t.eraseDevice := ht ▸ rfl
  unfold step
  rw [beginCycle_of_inInterrupt hin, beginCycle_of_inInterrupt htin, hhalted, hbudget, hfetch]
  by_cases hhalt : s.halted = true
  · simpa [hhalt, AgreeUpTo] using hdevice
  · by_cases hover : s.budgetExceeded = true
    · simp [hhalt, hover, AgreeUpTo]
    · cases hdecode : fetchDecode s with
      | error f => simp [hhalt, hover, Except.map, AgreeUpTo]
      | ok i =>
        have hmid : (s.setCursor (s.cursor + s.dueCount)).eraseDevice =
            (t.setCursor (t.cursor + t.dueCount)).eraseDevice := hdevice
        simpa [hhalt, hover, Except.map] using exec_agree_of_eraseDevice_eq i hmid

/-- Settles O47: `in_interrupt` is one of the fields that no instruction reads, and the table names `iret` as the only
instruction that writes it. -/
theorem instructionsIgnoreInInterrupt : Obligations.InstructionsIgnoreInInterrupt := by
  refine ⟨fun i s b => exec_agree_of_eraseInHandler_eq i rfl, fun i s t ht => ?_⟩
  by_cases hi : i = .iret
  · exact .inr hi
  · exact .inl <| (exec_control ht).inInterrupt.trans (inInterruptAfter_of_ne_iret s hi)

end Sys2Proof.Machine
end
